-- ==== Sys2Proof/Word.lean ====
section
/-! DEFINITION. The words of the SC816: bytes, speech samples, the numbered things of the part
(segments, addresses, call records, channels, windows, classifier entries) as bounded numbers, and
the plain arithmetic of held values (spec 00, Conventions). -/

namespace Sys2Proof

/-- One byte of a message block, a post burst or a report payload (12). -/
abbrev Byte := BitVec 8

/-- One 16-bit linear speech sample (R155). -/
abbrev Sample := BitVec 16

/-- The tag of a message block (12.1). -/
abbrev Tag := BitVec 16

/-- A value of the part's one CRC-16 (R47). -/
abbrev Crc := BitVec 16

/-- A table revision or a call sequence: 0 to 65535, wrapping (R74, R165). -/
abbrev Counter := BitVec 16

/-- A 32-bit serial identity of a post (R21). -/
abbrev Serial := BitVec 32

/-- A value of the time clock, in seconds, wrapping (R174). -/
abbrev Seconds := BitVec 32

/-- Segment index 0 to 7: segment number less one. -/
abbrev SegId := Fin 8

/-- Post address index 0 to 15: address less one. -/
abbrev Addr := Fin 16

/-- Call record index 0 to 31: call number less one. -/
abbrev CallNo := Fin 32

/-- Channel index 0 to 3 on a link: channel number less one. -/
abbrev ChanNo := Fin 4

/-- Routing window number 0 to 7 (R95). -/
abbrev WindowNo := Fin 8

/-- Classifier entry number 0 to 7 (R44). -/
abbrev EntryNo := Fin 8

/-- A value held within a range: stopped at the nearer limit (R159). -/
def holdIn (lo hi n : Nat) : Nat := max lo (min hi n)

/-- A number of one byte. -/
def byteOf (n : Nat) : Byte := BitVec.ofNat 8 n

end Sys2Proof
end

