-- ==== Sys2Proof/Syntax.lean ====
section
/-! DEFINITION. The commands and events of the SC816: one constructor of `Instr` for each row of
spec/opcode_table.json, with the operands its rule gives it. -/

namespace Sys2Proof

/-- The two control links (00, Conventions). -/
inductive Link where
  | a
  | b
  deriving DecidableEq, Repr

/-- A carriageway, or BOTH for routing windows only (12.4). -/
inductive CarriagewayCode where
  | one
  | two
  | both
  deriving DecidableEq, Repr

/-- The side of the road a post stands on (R68). -/
inductive Side where
  | left
  | right
  | median
  deriving DecidableEq, Repr

/-- The structure at a post: OPEN, TUNNEL, VIADUCT or SLIP (R68). -/
inductive RoadStructure where
  | openRoad
  | tunnel
  | viaduct
  | slip
  deriving DecidableEq, Repr

/-- Whether a classifier entry gives a call class or an alarm (R44). -/
inductive EntryKind where
  | call
  | alarm
  deriving DecidableEq, Repr

/-- An enumerated operand as a block carries it: a named value, or a code outside 12.4, which the
command's rule refuses MALFORMED in its own place among its checks (R159). -/
inductive Coded (α : Type) where
  | named (value : α)
  | other (code : Byte)
  deriving DecidableEq, Repr

/-- A call reference as a command carries it: any call number and a sequence (R74). -/
structure CallArg where
  number : Nat
  sequence : Counter
  deriving DecidableEq, Repr

/-- A post as a command carries it: any segment and address number. -/
structure PostArg where
  segment : Nat
  address : Nat
  deriving DecidableEq, Repr

/-- The fields WRITE_POST writes (R167). -/
structure PostFields where
  chainage : Nat
  carriageway : Coded CarriagewayCode
  side : Coded Side
  road : Coded RoadStructure
  cable : Option Nat
  serial : Option Serial
  deriving DecidableEq, Repr

/-- The fields WRITE_SEGMENT writes, as sent, before the clamps (R168). -/
structure SegmentFields where
  feedEnabled : Coded Bool
  turnOn : Nat
  turnOff : Nat
  turnaround : Nat
  cableConstant : Nat
  tolerance : Nat
  testThreshold : Nat
  ringPeriod : Nat
  ringOnTime : Nat
  ringTimeout : Nat
  deriving DecidableEq, Repr

/-- The fields WRITE_WINDOW writes, as sent (R110). -/
structure WindowFields where
  enabled : Bool
  base : Nat
  sizeCode : Nat
  carriageway : Coded CarriagewayCode
  home : Coded Link
  overflow : Nat
  classMask : BitVec 9
  label : Nat
  deriving DecidableEq, Repr

/-- The fields WRITE_CLASS writes, as sent (R53). -/
structure ClassFields where
  enabled : Bool
  kind : Coded EntryKind
  offset : Nat
  mask : BitVec 24
  crc : Crc
  chain : Bool
  inverse : Bool
  reports : Bool
  weight : Nat
  deriving DecidableEq, Repr

/-- One row of the table: a command from link `l` with its tag, or an event of a link, a line port,
a timer, the configuration memory, the supply or a pin. -/
inductive Instr where
  -- commands (R158); `expected` is the expected revision of a write (R166)
  | readStatus (l : Link) (tag : Tag)
  | setTime (l : Link) (tag : Tag) (seconds : Seconds)
  | listCalls (l : Link) (tag : Tag)
  | readCall (l : Link) (tag : Tag) (call : CallArg)
  | listAbandoned (l : Link) (tag : Tag)
  | listPending (l : Link) (tag : Tag)
  | answer (l : Link) (tag : Tag) (call : CallArg) (channel : Nat)
  | decline (l : Link) (tag : Tag) (call : CallArg)
  | hold (l : Link) (tag : Tag) (call : CallArg)
  | retrieve (l : Link) (tag : Tag) (call : CallArg)
  | release (l : Link) (tag : Tag) (call : CallArg)
  | join (l : Link) (tag : Tag) (call : CallArg) (channel : Nat)
  | leave (l : Link) (tag : Tag) (call : CallArg)
  | callPost (l : Link) (tag : Tag) (post : PostArg) (channel : Nat) (priority : Option Nat)
  | testPost (l : Link) (tag : Tag) (post : PostArg)
  | handoverFinish (l : Link) (tag : Tag)
  | handoverImmediate (l : Link) (tag : Tag)
  | resume (l : Link) (tag : Tag)
  | readPost (l : Link) (tag : Tag) (post : PostArg)
  | writePost (l : Link) (tag : Tag) (expected : Option Counter) (post : PostArg) (fields : PostFields)
  | clearPost (l : Link) (tag : Tag) (expected : Option Counter) (post : PostArg)
  | readSegment (l : Link) (tag : Tag) (segment : Nat)
  | writeSegment (l : Link) (tag : Tag) (expected : Option Counter) (segment : Nat) (fields : SegmentFields)
  | feedOff (l : Link) (tag : Tag) (segment : Nat)
  | feedOn (l : Link) (tag : Tag) (segment : Nat)
  | feedReEnable (l : Link) (tag : Tag) (segment : Nat)
  | unmutePost (l : Link) (tag : Tag) (post : PostArg)
  | readWindow (l : Link) (tag : Tag) (window : Nat)
  | writeWindow (l : Link) (tag : Tag) (expected : Option Counter) (window : Nat) (fields : WindowFields)
  /-- The entry is a class code: 0 to 7, or 8 for DEFAULT (12.4). -/
  | readClass (l : Link) (tag : Tag) (entry : Nat)
  | writeClass (l : Link) (tag : Tag) (expected : Option Counter) (entry : Nat) (fields : ClassFields)
  | writeDefaults (l : Link) (tag : Tag) (expected : Option Counter) (home : Coded Link) (weight overflow : Nat)
  | writeLink (l : Link) (tag : Tag) (expected : Option Counter) (named : Coded Link) (depth lossTime : Nat)
  | lockStructure (l : Link) (tag : Tag)
  | saveImage (l : Link) (tag : Tag)
  -- link events
  | unknownCommand (l : Link) (tag : Tag)
  /-- The bytes of the received block, start marker first. -/
  | badBlock (l : Link) (bytes : List Byte)
  /-- One frame of link `l`: the four samples and the message byte received, and the samples standing
  at the eight line ports' speech inputs. -/
  | linkFrame (l : Link) (samples : Vector Sample 4) (byte : Byte) (lineIn : Vector Sample 8)
  | startedSent (l : Link)
  | linkLossExpiry (l : Link)
  -- Line Unit events; `volts` and `over` are the feed monitor's readings at the event (R19)
  | feedVoltageFall (g : SegId) (volts : Nat) (overLimit : Bool)
  | feedVoltageAboveTurnOff (g : SegId) (volts : Nat) (overLimit : Bool)
  | feedVoltageAboveTurnOn (g : SegId) (volts : Nat) (overLimit : Bool)
  | overCurrent (g : SegId) (volts : Nat)
  | underVoltageFilterExpiry (g : SegId)
  | rePowerTimerExpiry (g : SegId)
  | tripRetryExpiry (g : SegId)
  | startUpSwitchOn (g : SegId)
  -- polling events; `carrier` is the carrier detector's reading, `onBattery` the on-battery input
  | pollSlot (g : SegId) (carrier : Bool) (onBattery : Bool)
  /-- A report burst: its delay D in ticks and its bytes (R177). -/
  | report (g : SegId) (delay : Nat) (bytes : List Byte)
  | responseWindowClose (g : SegId) (carrier : Bool)
  | carrierStart (g : SegId)
  | attentionBurst (g : SegId)
  | babble (g : SegId)
  | isolationListenEnd (g : SegId) (carrier : Bool)
  | economyPassStart (g : SegId)
  | onBatteryDeassert
  -- call and test timers
  | ageingStep (n : CallNo)
  | overflowTimerExpiry (n : CallNo)
  | ringPeriodStart (n : CallNo)
  | ringOnTimeEnd (n : CallNo)
  | ringDeadline (n : CallNo)
  /-- The bits that came back, aligned on the first echo carrier; none where no echo carrier appeared
  within 50 ms of the first bit (R138). -/
  | testComparisonEnd (g : SegId) (returned : Option (List Bool))
  -- configuration memory; `fault` says that the bytes the memory returns fail the tests of R178
  | imageWritten
  | saveReadBackEnd (fault : Bool)
  | imageLoadEnd (fault : Bool)
  | loadTimeout
  -- supply, RESET pin, time clock
  | powerOn
  | supplySenseLow
  | supplySenseGood
  | holdOffExpiry
  | resetPinAssert
  | resetPinRelease
  | timeClockTick
  deriving DecidableEq, Repr

end Sys2Proof
end

