-- ==== Sys2Proof/Decode.lean ====
section
/-! DEFINITION. The words of the table. No row of spec/opcode_table.json gives bits ("fields" is empty
in every row and none has "fixed"), so no word spells a command: `decodeTableWord` answers none. How
message bytes become commands (R156, R158, R176) is in Machine/Receive.lean. -/

namespace Sys2Proof

/-- The command a word of the table spells: none, since the table gives no row any bits. -/
def decodeTableWord (_nbits _w : Nat) : Option Instr := none

end Sys2Proof
end

