-- ==== Sys2Proof/Machine/State.lean ====
section
/-! DEFINITION. The state of the SC816 as plain data: every register, record, list, timer and queue the
spec gives the part, the queue of waiting rows, and the state right after reset. Times are milliseconds
on the part's own timebase (R97, R163); a timer is the time it expires, or none where it is stopped. -/

namespace Sys2Proof.Machine

open Sys2Proof

/-! ### Pairs of things, one per link -/

/-- One value for link A and one for link B. -/
structure PerLink (α : Type) where
  a : α
  b : α
  deriving DecidableEq, Repr

/-- The same value for both links. -/
def PerLink.both {α : Type} (x : α) : PerLink α := ⟨x, x⟩

/-! ### Posts, segments and the configuration tables -/

/-- A post, by segment and address (00, Conventions). -/
structure PostId where
  seg : SegId
  addr : Addr
  deriving DecidableEq, Repr

/-- The carriageway of a configured post: 1 or 2 (R68). -/
inductive Carriageway where
  | one
  | two
  deriving DecidableEq, Repr

/-- The configured part of a configured post (R20, R167); an unconfigured post has none. -/
structure PostConfig where
  chainage : Nat
  carriageway : Carriageway
  side : Side
  road : RoadStructure
  cable : Option Nat
  serial : Option Serial
  deriving DecidableEq, Repr

/-- The configured fields of a segment record (R1). -/
structure SegmentConfig where
  feedEnabled : Bool
  turnOn : Nat
  turnOff : Nat
  turnaround : Nat
  cableConstant : Nat
  tolerance : Nat
  testThreshold : Nat
  ringPeriod : Nat
  ringOnTime : Nat
  ringTimeout : Nat
  deriving DecidableEq, Repr

/-- A routing window (R95). Bits 0 to 7 of the class mask are entries 0 to 7, bit 8 is DEFAULT. -/
structure Window where
  enabled : Bool
  base : Nat
  sizeCode : Fin 8
  carriageway : CarriagewayCode
  home : Link
  overflow : Nat
  classMask : BitVec 9
  label : Nat
  deriving DecidableEq, Repr

/-- A classifier entry (R44). -/
structure ClassEntry where
  enabled : Bool
  kind : EntryKind
  offset : Nat
  mask : BitVec 24
  crc : Crc
  chain : Bool
  inverse : Bool
  reports : Bool
  weight : Nat
  deriving DecidableEq, Repr

/-- The two configured parameters of a link (R154). -/
structure LinkConfig where
  depth : Nat
  lossTime : Nat
  deriving DecidableEq, Repr

/-- The three defaults (R169). -/
structure Defaults where
  home : Link
  weight : Nat
  overflow : Nat
  deriving DecidableEq, Repr

/-- The whole configuration, as the stored image holds it (R171). -/
structure Tables where
  posts : Vector (Vector (Option PostConfig) 16) 8
  segments : Vector SegmentConfig 8
  windows : Vector Window 8
  classes : Vector ClassEntry 8
  defaults : Defaults
  links : PerLink LinkConfig
  deriving DecidableEq, Repr

/-! ### Calls -/

/-- A call class: a classifier entry, or DEFAULT (R72). -/
inductive CallClass where
  | entry (n : EntryNo)
  | default
  deriving DecidableEq, Repr

/-- The call-class result of an evaluation: the class with its weight (R49). -/
structure ClassResult where
  cls : CallClass
  weight : Nat
  deriving DecidableEq, Repr

/-- A call reference: call number with sequence (R74). -/
structure CallRef where
  number : CallNo
  sequence : Counter
  deriving DecidableEq, Repr

inductive CallKind where
  | emergency
  | callback
  deriving DecidableEq, Repr

/-- The eight states of a call in use (R73). -/
inductive CallState where
  | queued
  | offered
  | answered
  | connected
  | held
  | lineLost
  | transferring
  | ringing
  deriving DecidableEq, Repr

inductive OfferPhase where
  | home
  | openToBoth
  deriving DecidableEq, Repr

/-- The Location Unit's judgement of a post's claim (R56). -/
inductive Verification where
  | unranged
  | verified
  | distanceMismatch
  | identityMismatch
  deriving DecidableEq, Repr

/-- The configured place a location record carries (R68). -/
structure Place where
  chainage : Nat
  carriageway : Carriageway
  side : Side
  road : RoadStructure
  deriving DecidableEq, Repr

/-- A location record (R68). An unconfigured post's record has no place. -/
structure LocationRecord where
  post : PostId
  place : Option Place
  label : Option Nat
  verification : Verification
  filtered : Option Nat
  probable : Option PostId
  serial : Option Serial
  deriving DecidableEq, Repr

/-- The ring cadence of a RINGING callback (R131): when the ringing and the present period began, the
settings read at that period's start, and whether ring-back is audible (R132). -/
structure Cadence where
  began : Nat
  periodStart : Nat
  period : Nat
  onTime : Nat
  audible : Bool
  deriving DecidableEq, Repr

/-- A call record in use (R72), with the Offer Engine's decline mark (R94). -/
structure Call where
  sequence : Counter
  kind : CallKind
  post : PostId
  state : CallState
  cls : CallClass
  weight : Nat
  priority : Nat
  phase : Option OfferPhase
  home : Option Link
  /-- The overflow deadline and its running timer (R97). -/
  overflowAt : Option Nat
  offered : PerLink Bool
  owner : Option Link
  ownerChannel : Option ChanNo
  joinedChannel : Option ChanNo
  pathHeld : Bool
  lineDown : Bool
  transferred : Bool
  origin : Seconds
  location : LocationRecord
  ringDeadline : Option Nat
  /-- The ageing clock: when the step being counted began, none where the clock is stopped (R78). -/
  ageing : Option Nat
  declineMark : Option Link
  cadence : Option Cadence
  deriving DecidableEq, Repr

/-- An entry of the pending list (R80). -/
structure PendingEntry where
  post : PostId
  joined : Seconds
  result : ClassResult
  deriving DecidableEq, Repr

/-- An entry of the abandoned list (R83). -/
structure AbandonedEntry where
  post : PostId
  origin : Seconds
  cls : CallClass
  chainage : Option Nat
  abandoned : Seconds
  deriving DecidableEq, Repr

/-! ### The dynamic parts of a post record -/

inductive Presence where
  | unknown
  | present
  | lost
  | muted
  deriving DecidableEq, Repr

inductive Hook where
  | on
  | off
  | unknown
  deriving DecidableEq, Repr

inductive ReportFormat where
  | basic
  | extended
  deriving DecidableEq, Repr

/-- The outcome of ranging stages 1 and 2 for the last accepted report (R56). -/
inductive LastSample where
  | early
  | distance (metres : Nat) (overRange : Bool)
  deriving DecidableEq, Repr

/-- The line, location, event and call parts of a post record (R20, R21, R56, R44, R75). -/
structure Post where
  presence : Presence
  hook : Hook
  missed : Nat
  lastSerial : Option Serial
  lastFormat : Option ReportFormat
  selected : Bool
  ringing : Bool
  echo : Bool
  barred : Bool
  filtered : Option Nat
  mismatch : Nat
  verification : Verification
  lastSample : Option LastSample
  /-- The active-alarm set, in ascending entry number. -/
  alarms : List EntryNo
  call : Option CallRef
  pending : Bool
  deriving DecidableEq, Repr

/-! ### Segment records -/

inductive FeedState where
  | off
  | powering
  | discovery
  | active
  | isolating
  | feedLost
  | tripped
  | locked
  deriving DecidableEq, Repr

/-- The Line Unit's part of a segment record, with the feed monitor's present readings (R1, R19, R38). -/
structure LineUnit where
  feed : FeedState
  trips : Nat
  startUp : Bool
  startUpAt : Option Nat
  volts : Nat
  overLimit : Bool
  underFilter : Option Nat
  rePower : Option Nat
  retry : Option Nat
  feedOn : Option Nat
  /-- When the timing of carrier outside a window began (R38). -/
  carrierSince : Option Nat
  deriving DecidableEq, Repr

inductive Tempo where
  | normal
  | economy
  deriving DecidableEq, Repr

/-- The order kinds (R23). -/
inductive Order where
  | status
  | select
  | deselect
  | registered
  | clear
  | ringOn
  | ringOff
  | mute
  | unmute
  | echoOn
  | echoOff
  | muteAll
  deriving DecidableEq, Repr

/-- An entry of a segment's order queue (R31). -/
structure QueueEntry where
  addr : Addr
  order : Order
  deriving DecidableEq, Repr

/-- The order whose response window is open (R24): whether it came from the queue, and whether a
matching stopping order was requested since it was sent (R23, R117). -/
structure SentOrder where
  addr : Addr
  order : Order
  queued : Bool
  overtaken : Bool
  deriving DecidableEq, Repr

/-- Where the isolation sweep stands (R40, R41). A listen step holds the end of its listen period. -/
inductive IsolationStep where
  | muteAllNext
  | muteAllListen (listenEnd : Nat)
  | unmuteNext
  | unmuteListen (listenEnd : Nat)
  | statusNext
  | muteNext
  | muteListen (listenEnd : Nat)
  deriving DecidableEq, Repr

/-- The Poll Scheduler's part of a segment record, with its order queue and sweeps (R31 to R42). -/
structure Poll where
  tempo : Tempo
  sweepPosition : Addr
  covered : Nat
  economyPass : Bool
  economyDue : Option Nat
  /-- Whether the previous slot carried an order from the queue (R32). -/
  lastQueued : Bool
  /-- The address the discovery sweep is settling (R37). -/
  discovery : Option Addr
  isolation : Option IsolationStep
  isolationPosition : Option Addr
  queue : List QueueEntry
  sent : Option SentOrder
  /-- The bytes of the order burst of the last poll slot, empty where it sent none (R177). -/
  burst : List Byte
  deriving DecidableEq, Repr

/-- The holder of a segment's speech path (R113). -/
inductive Holder where
  | none
  | call (ref : CallRef)
  | test
  deriving DecidableEq, Repr

/-- The grant mark of a segment: the call granted and whether its SELECT was answered (R112). -/
structure Grant where
  ref : CallRef
  answered : Bool
  deriving DecidableEq, Repr

inductive TestPhase where
  | waiting
  | starting
  | running
  deriving DecidableEq, Repr

/-- The test sequence as it is sent: the shift register, and the samples sent since its start (R138). -/
structure TestSignal where
  register : BitVec 8
  sample : Nat
  deriving DecidableEq, Repr

/-- The test record of a segment (R137). -/
structure TestRecord where
  addr : Addr
  requester : Link
  phase : TestPhase
  deriving DecidableEq, Repr

/-- The last test result of a segment (R1, R139, R140). -/
inductive TestResult where
  | pass (errors : Nat)
  | fail (errors : Nat)
  | abandoned
  deriving DecidableEq, Repr

/-- The Path Switch's part of a segment record, with the line port's speech samples (R112, R120). -/
structure Path where
  holder : Holder
  grant : Option Grant
  test : Option TestRecord
  lastTest : Option TestResult
  /-- The samples since the hold tone started toward the post, none where it is stopped (R121). -/
  holdTone : Option Nat
  /-- The test sequence on the pair, none where no test is RUNNING (R138). -/
  signal : Option TestSignal
  speechIn : Sample
  speechOut : Sample
  deriving DecidableEq, Repr

/-- The dynamic part of a segment record, by owner (R1). -/
structure Segment where
  line : LineUnit
  poll : Poll
  path : Path
  deriving DecidableEq, Repr

/-- What a path request asks the segment's path for (R114). -/
inductive Claimant where
  | call (n : CallNo)
  | test
  deriving DecidableEq, Repr

/-- A path request; its segment is its post's (R114). -/
structure PathRequest where
  claimant : Claimant
  post : PostId
  deriving DecidableEq, Repr

/-! ### Channels -/

inductive ChannelRole where
  | owner
  | joined
  deriving DecidableEq, Repr

/-- An entry of the channel table (R119). -/
inductive ChannelUse where
  | free
  | reserved (n : CallNo) (role : ChannelRole)
  | connected (n : CallNo) (role : ChannelRole)
  deriving DecidableEq, Repr

/-- A channel with its waiting tone, the samples since the tone started or none where stopped (R121), and the last
speech sample received on it in its present use (R119, R155). -/
structure Channel where
  use : ChannelUse
  waitingTone : Option Nat
  heard : Sample
  deriving DecidableEq, Repr

/-! ### Messages -/

inductive ResetCause where
  | powerOn
  | supplyDip
  | resetPin
  deriving DecidableEq, Repr

/-- The image state, VALID with its saved revision (R171). -/
inductive ImageState where
  | valid (revision : Counter)
  | invalid
  | saving
  deriving DecidableEq, Repr

inductive OfferingMode where
  | accepting
  | draining
  | closed
  deriving DecidableEq, Repr

/-- The 32 commands of a message block by type, and the type of a block that names none (12.1). -/
inductive CommandType where
  | readStatus
  | setTime
  | listCalls
  | readCall
  | listAbandoned
  | listPending
  | answer
  | decline
  | hold
  | retrieve
  | release
  | join
  | leave
  | callPost
  | testPost
  | handover
  | resume
  | readPost
  | writePost
  | clearPost
  | readSegment
  | writeSegment
  | feed
  | unmutePost
  | readWindow
  | writeWindow
  | readClass
  | writeClass
  | writeDefaults
  | writeLink
  | lockStructure
  | saveImage
  | unknown
  deriving DecidableEq, Repr

/-- The refusal codes of a response, in the order of 12.1 (R159). -/
inductive RefusalCode where
  | malformed
  | busy
  | stale
  | locked
  | noSuchCall
  | notOffered
  | taken
  | notOwner
  | channelBusy
  | postBusy
  | postAbsent
  | segmentDown
  | noPeer
  | badState
  deriving DecidableEq, Repr

/-- One link in a READ_STATUS answer (R162). -/
structure LinkStatus where
  up : Bool
  mode : OfferingMode
  depth : Option Nat
  lossTime : Option Nat
  offers : Nat
  deriving DecidableEq, Repr

/-- One segment in a READ_STATUS answer (R162). -/
structure SegmentStatus where
  feed : FeedState
  holder : Holder
  deriving DecidableEq, Repr

/-- The data of a READ_STATUS answer (R162); what is not settled during LOADING is absent. -/
structure StatusData where
  running : Bool
  cause : ResetCause
  clock : Seconds
  clockSet : Bool
  revision : Option Counter
  image : Option ImageState
  unsaved : Option Bool
  lock : Bool
  linkA : LinkStatus
  linkB : LinkStatus
  overrun : Bool
  callsInUse : Nat
  waitingCount : Nat
  queueLoad : Bool
  pendingLength : Nat
  defaultHome : Option Link
  defaultOverflow : Option Nat
  defaultWeight : Option Nat
  segments : List SegmentStatus
  deriving DecidableEq, Repr

/-- One summary of LIST_CALLS: the call's record, with its snapshot (R69), of which the block carries the fields of
R92's list (log 31). -/
structure CallSummary where
  number : CallNo
  call : Call
  deriving DecidableEq, Repr

/-- The answer of READ_CALL (R92): the record, the seconds left to its deadlines, and its place in the
waiting order counted from 1. -/
structure CallData where
  number : CallNo
  call : Call
  overflowLeft : Option Nat
  ringLeft : Option Nat
  place : Option Nat
  deriving DecidableEq, Repr

/-- The answer of READ_POST (R22). -/
structure PostData where
  config : Option PostConfig
  post : Post
  probable : Option PostId
  place : Option Nat
  deriving DecidableEq, Repr

/-- The answer of READ_SEGMENT (R19). -/
structure SegmentData where
  config : SegmentConfig
  feed : FeedState
  trips : Nat
  tempo : Tempo
  startUp : Bool
  holder : Holder
  lastTest : Option TestResult
  isolationPosition : Option Addr
  volts : Nat
  overLimit : Bool
  deriving DecidableEq, Repr

/-- The data a DONE response returns. -/
inductive Reply where
  | empty
  | status (d : StatusData)
  | calls (l : List CallSummary)
  | call (d : CallData)
  | abandoned (l : List AbandonedEntry)
  | pendingPosts (l : List PendingEntry)
  | callPlaced (ref : CallRef) (seconds : Nat)
  | post (d : PostData)
  | segment (d : SegmentData)
  | segmentStored (c : SegmentConfig)
  | window (w : Window) (first last : Nat)
  | windowStored (w : Window)
  | classEntry (e : ClassEntry)
  | defaultWeight (w : Nat)
  | classStored (e : ClassEntry)
  | defaultsStored (d : Defaults)
  | linkStored (c : LinkConfig)
  deriving DecidableEq, Repr

/-- The result of a response: DONE with data, or one refusal code (R158). -/
inductive Result where
  | done (r : Reply)
  | refused (c : RefusalCode)
  deriving DecidableEq, Repr

inductive WithdrawReason where
  | answered (by_ : Link)
  | depth
  | handover
  deriving DecidableEq, Repr

/-- Call-ending causes (12.4). -/
inductive EndCause where
  | onHook
  | release
  | notPresent
  | lineLoss
  | transfer
  deriving DecidableEq, Repr

inductive TransferCause where
  | handover
  | linkLoss
  deriving DecidableEq, Repr

/-- SEGMENT_STATE causes, in the order of R16; COMMAND names the source link. -/
inductive SegmentCause where
  | startUp
  | command (source : Link)
  | underVoltage
  | voltageFall
  | voltageReturn
  | settled
  | sweepDone
  | babble
  | overCurrent
  | lineFault
  | retry
  deriving DecidableEq, Repr

inductive AbandonCause where
  | preempted
  | offHook
  | lineLoss
  deriving DecidableEq, Repr

inductive HandoverMode where
  | finish
  | immediate
  deriving DecidableEq, Repr

/-- The table and item of a TABLES_CHANGED notice (R166). -/
inductive TableItem where
  | post (p : PostId)
  | segment (g : SegId)
  | window (w : WindowNo)
  | cls (e : EntryNo)
  | defaults
  | link (l : Link)
  deriving DecidableEq, Repr

inductive ChangeSource where
  | link (l : Link)
  | learned
  deriving DecidableEq, Repr

/-- One link in a LINK_STATE notice (R161). -/
structure LinkView where
  up : Bool
  mode : OfferingMode
  depth : Nat
  deriving DecidableEq, Repr

/-- The notices (10.7), in the order of their types (12.1). -/
inductive Notice where
  | callOffered (ref : CallRef) (call : Call) (secondsLeft : Option Nat)
  | callWithdrawn (ref : CallRef) (post : PostId) (reason : WithdrawReason)
  | callAbandoned (ref : Option CallRef) (post : PostId) (origin : Seconds) (cls : CallClass) (cause : EndCause)
  | callCleared (ref : CallRef) (post : PostId) (was : CallState) (owner : Option Link) (cause : EndCause)
      (releasing : Option Link)
  | callTransferred (ref : CallRef) (post : PostId) (state : CallState) (former : Link) (new : Option Link)
      (cause : TransferCause)
  | pathWait (ref : CallRef) (post : PostId) (holder : Holder) (ahead : Nat)
  | lineLost (ref : CallRef) (post : PostId)
  | lineRestored (ref : CallRef) (post : PostId)
  | callbackUnanswered (ref : CallRef) (post : PostId) (former : Option Link) (origin : Seconds) (rang : Nat)
  | callbackFailed (ref : CallRef) (post : PostId) (former : Option Link) (cause : EndCause)
  | queueLoad (raised : Bool) (waiting : Nat) (pendingLength : Nat)
  | postFound (post : PostId) (serial : Serial) (hook : Hook)
  | postLost (post : PostId)
  | postMismatch (post : PostId) (new previous : Verification) (filtered : Option Nat) (probable : Option PostId)
      (lastSerial storedSerial : Option Serial)
  | alarmRaised (post : PostId) (entry : EntryNo) (location : LocationRecord)
  | alarmCleared (post : PostId) (entry : EntryNo)
  | segmentState (g : SegId) (new previous : FeedState) (cause : SegmentCause) (trips : Nat)
  | babblerIsolated (post : PostId) (lastSerial : Option Serial) (previous : Presence)
  | testResult (post : PostId) (requester : Link) (result : TestResult) (cause : Option AbandonCause)
  | handoverDone (l : Link) (mode : HandoverMode) (transfers : Nat)
  | linkState (viewA viewB : LinkView)
  | tablesChanged (revision : Counter) (item : TableItem) (source : ChangeSource)
  | saveDone (revision : Option Counter)
  | started (cause : ResetCause) (image : ImageState) (revision : Counter) (clock : Seconds) (clockSet : Bool)
  deriving DecidableEq, Repr

/-- A block of an output queue: a response with its command's tag, or a notice (R158, R160). -/
inductive Block where
  | response (tag : Tag) (command : CommandType) (result : Result)
  | notice (n : Notice)
  deriving DecidableEq, Repr

/-! ### Link records -/

/-- A running link-loss timer: when the last valid message came, and when the timer expires (R157). -/
structure LossTimer where
  since : Nat
  due : Nat
  deriving DecidableEq, Repr

/-- A link record (R154) with its channels (R119) and what its last frame sent (R155). -/
structure LinkRec where
  up : Bool
  lossTimer : Option LossTimer
  mode : OfferingMode
  offers : Nat
  transfers : Nat
  startedSent : Bool
  overrun : Bool
  /-- The receive assembly: the bytes of the block in progress, start marker first; empty is hunting. -/
  assembly : List Byte
  queue : List Block
  /-- How many bytes of the head block were sent (R160). -/
  sentBytes : Nat
  transmitted : Vector Sample 4
  transmittedByte : Byte
  frames : Nat
  channels : Vector Channel 4
  deriving DecidableEq, Repr

/-! ### Supply, clock, Table Manager -/

/-- Where the part stands (R173, R175). -/
inductive Phase where
  | inReset
  | loading
  | running
  deriving DecidableEq, Repr

/-- The Supply Monitor (R173). -/
structure Supply where
  phase : Phase
  cause : ResetCause
  senseLow : Bool
  holdOff : Option Nat
  pinLow : Bool
  deriving DecidableEq, Repr

/-- The time clock (R174); `nextSecond` is when its next whole second falls on the timebase. -/
structure Clock where
  seconds : Seconds
  isSet : Bool
  nextSecond : Nat
  deriving DecidableEq, Repr

inductive SaveStage where
  | writing
  | readingBack
  deriving DecidableEq, Repr

/-- A save in progress: its snapshot and revision (R171). -/
structure Save where
  snapshot : Tables
  revision : Counter
  stage : SaveStage
  deriving DecidableEq, Repr

/-- The Table Manager's own registers (R165, R170 to R175). -/
structure Manager where
  revision : Counter
  lock : Bool
  image : ImageState
  save : Option Save
  loadDue : Option Nat
  deriving DecidableEq, Repr

/-- What the configuration memory holds (R178): the header's fields, the tables region as the tables it
stands for, and whether its CRC agrees with the rest. The arrangement of the region is the part's own. -/
structure StoredImage where
  marker : BitVec 32
  revision : Counter
  size : Nat
  tables : Tables
  crcGood : Bool
  deriving DecidableEq, Repr

/-! ### The state -/

/-- The state of the part and the queue of rows waiting to be taken. -/
structure State where
  supply : Supply
  timebase : Nat
  clock : Clock
  manager : Manager
  tables : Tables
  memory : StoredImage
  /-- Whether a load has failed with no SAVE_IMAGE having succeeded since, so that the image is unloadable (R175). -/
  loadFailed : Bool
  links : PerLink LinkRec
  segments : Vector Segment 8
  posts : Vector (Vector Post 16) 8
  calls : Vector (Option Call) 32
  /-- The creation order of the records in use (R74). -/
  created : List CallNo
  nextSequence : Counter
  queueLoad : Bool
  pendingList : List PendingEntry
  abandonedList : List AbandonedEntry
  requests : List PathRequest
  onBattery : Bool
  /-- Whether a link has framed since the line ports' present sample began: the ports' clock (log 14). -/
  framed : PerLink Bool
  /-- The rows waiting, first in, first out. -/
  pending : List Instr
  deriving DecidableEq, Repr

/-- The part has no fault: every row has a next state (INVENTORY, Faults). No constructor, safe. -/
inductive Fault where
  deriving DecidableEq, Repr

/-- Why a row is refused by the model. -/
inductive Refusal where
  /-- Raised only by an arm of `exec` whose row has no meaning yet; safe. No arm raises it. -/
  | notModelled (mnemonic : String)
  deriving DecidableEq, Repr

/-! ### Values after reset -/

/-- The segment fields without a valid image (R1). -/
def SegmentConfig.withoutImage : SegmentConfig :=
  { feedEnabled := true, turnOn := 44, turnOff := 38, turnaround := 2500, cableConstant := 990, tolerance := 60,
    testThreshold := 4, ringPeriod := 40, ringOnTime := 20, ringTimeout := 60 }

/-- A routing window without a valid image (R95). -/
def Window.withoutImage : Window :=
  { enabled := false, base := 0, sizeCode := 0, carriageway := .both, home := .a, overflow := 20,
    classMask := 0x1FF#9, label := 0 }

/-- A classifier entry without a valid image (R44). -/
def ClassEntry.withoutImage : ClassEntry :=
  { enabled := false, kind := .call, offset := 0, mask := 0#24, crc := 0#16, chain := false, inverse := false,
    reports := false, weight := 0 }

/-- The link parameters without a valid image (R154, R175). -/
def LinkConfig.withoutImage : LinkConfig := { depth := 4, lossTime := 3 }

/-- The defaults without a valid image (R175). -/
def Defaults.withoutImage : Defaults := { home := .a, weight := 100, overflow := 20 }

/-- The empty tables (R175). -/
def Tables.withoutImage : Tables :=
  { posts := Vector.replicate 8 (Vector.replicate 16 none)
    segments := Vector.replicate 8 SegmentConfig.withoutImage
    windows := Vector.replicate 8 Window.withoutImage
    classes := Vector.replicate 8 ClassEntry.withoutImage
    defaults := Defaults.withoutImage
    links := PerLink.both LinkConfig.withoutImage }

/-- A post record after every kind of reset (R21, R56, R44, R75). -/
def Post.atReset : Post :=
  { presence := .unknown, hook := .unknown, missed := 0, lastSerial := none, lastFormat := none, selected := false,
    ringing := false, echo := false, barred := false, filtered := none, mismatch := 0, verification := .unranged,
    lastSample := none, alarms := [], call := none, pending := false }

/-- The Line Unit's part after every kind of reset (R1, R17); readings DESIGN CHOICE 0 and no (log 6). -/
def LineUnit.atReset : LineUnit :=
  { feed := .off, trips := 0, startUp := false, startUpAt := none, volts := 0, overLimit := false, underFilter := none,
    rePower := none, retry := none, feedOn := none, carrierSince := none }

/-- The Poll Scheduler's part after every kind of reset (R1, R31, R34, R36), with no burst sent. -/
def Poll.atReset : Poll :=
  { tempo := .normal, sweepPosition := 0, covered := 0, economyPass := false, economyDue := none, lastQueued := false,
    discovery := none, isolation := none, isolationPosition := none, queue := [], sent := none,
    burst := [] }

/-- The Path Switch's part after every kind of reset (R1, R112). -/
def Path.atReset : Path :=
  { holder := .none, grant := none, test := none, lastTest := none, holdTone := none, signal := none,
    speechIn := 0#16, speechOut := 0#16 }

/-- A segment record after every kind of reset (R1). -/
def Segment.atReset : Segment :=
  { line := LineUnit.atReset, poll := Poll.atReset, path := Path.atReset }

/-- A FREE channel with no tone (R112), and no sample heard in its present use. -/
def Channel.atReset : Channel := { use := .free, waitingTone := none, heard := 0#16 }

/-- A link record after every kind of reset (R154), sending silence and idle fill (R173). -/
def LinkRec.atReset : LinkRec :=
  { up := false, lossTimer := none, mode := .accepting, offers := 0, transfers := 0, startedSent := false,
    overrun := false, assembly := [], queue := [], sentBytes := 0, transmitted := Vector.replicate 4 0#16,
    transmittedByte := 0x3C#8, frames := 0, channels := Vector.replicate 4 Channel.atReset }

/-- A blank configuration memory: the marker reads FF FF FF FF hex (R178). DESIGN CHOICE (log 5). -/
def StoredImage.blank : StoredImage :=
  { marker := 0xFFFFFFFF#32, revision := 0#16, size := 0, tables := Tables.withoutImage, crcGood := false }

/-- The machine right after reset: a POWER_ON reset at the moment the part leaves it, so that LOADING
begins (R173, R175), with every register at its reset value (log 4). What the end of LOADING settles, the tables with
the classifier entries and the default class weight, and the revision, stands until then at the values of a failed
load. DESIGN CHOICE (log 27): the spec gives them no value before the end of LOADING. -/
def State.reset : State :=
  { supply := { phase := .loading, cause := .powerOn, senseLow := false, holdOff := none, pinLow := false }
    timebase := 0
    clock := { seconds := 0#32, isSet := false, nextSecond := 1000 }
    manager := { revision := 0#16, lock := false, image := .invalid, save := none, loadDue := some 800 }
    tables := Tables.withoutImage
    memory := StoredImage.blank
    loadFailed := false
    links := PerLink.both LinkRec.atReset
    segments := Vector.replicate 8 Segment.atReset
    posts := Vector.replicate 8 (Vector.replicate 16 Post.atReset)
    calls := Vector.replicate 32 none
    created := []
    nextSequence := 0#16
    queueLoad := false
    pendingList := []
    abandonedList := []
    requests := []
    onBattery := false
    framed := PerLink.both false
    pending := [] }

end Sys2Proof.Machine
end

