-- ==== Sys2Proof/Machine/Crc.lean ====
section
/-! DEFINITION. The part's one CRC-16 (R47): x^16 + x^12 + x^5 + 1, initial value FFFF hex, each byte most
significant bit first, no final inversion. -/

namespace Sys2Proof.Machine

open Sys2Proof

/-- One bit shifted through the CRC register. -/
def crcBit (r : Crc) : Crc := if r.msb then (r <<< 1) ^^^ 0x1021#16 else r <<< 1

/-- One byte shifted in, most significant bit first. -/
def crcByte (r : Crc) (b : Byte) : Crc :=
  crcBit (crcBit (crcBit (crcBit (crcBit (crcBit (crcBit (crcBit (r ^^^ (b.setWidth 16 <<< 8)))))))))

/-- The CRC over a string of bytes. -/
def crc16 (bytes : List Byte) : Crc := bytes.foldl crcByte 0xFFFF#16

/-- The two bytes of a 16-bit value, most significant first (12). -/
def bytes16 (w : BitVec 16) : List Byte := [(w >>> 8).setWidth 8, w.setWidth 8]

/-- The 16-bit value of two bytes, most significant first. -/
def word16 (hi lo : Byte) : BitVec 16 := hi ++ lo

/-- The four bytes of a 32-bit value, most significant first. -/
def bytes32 (w : BitVec 32) : List Byte :=
  [(w >>> 24).setWidth 8, (w >>> 16).setWidth 8, (w >>> 8).setWidth 8, w.setWidth 8]

/-- The 32-bit value of four bytes, most significant first. -/
def word32 (b3 b2 b1 b0 : Byte) : BitVec 32 := b3 ++ b2 ++ b1 ++ b0

end Sys2Proof.Machine
end

