-- ==== Sys2Proof/Config.lean ====
section
/-! DEFINITION. What the spec leaves open as a value: the waveforms of the part's tones. R120, R121 and
R132 give when each tone sounds and on what pattern; no rule gives a frequency, a level or a shape. Each
constant below has no body, so nothing can be proved of its value (log 13). R138 gives the bits of the
line test and no modulation of them. -/

namespace Sys2Proof.Config

/-- The waiting tone's sample at a sample index within its burst (R121). DESIGN CHOICE: a free value. -/
opaque waitingToneSample : Nat → Sample

/-- The hold tone's sample at a sample index of its pattern (R121). DESIGN CHOICE: a free value. -/
opaque holdToneSample : Nat → Sample

/-- Ring-back's sample at a link frame count (R120, R132). DESIGN CHOICE: a free value. -/
opaque ringBackSample : Nat → Sample

/-- The speech-band sample that carries a bit of the line test, at a sample count since the test's sequence started
(R138). DESIGN CHOICE: a free value. -/
opaque testSignalSample : Bool → Nat → Sample

end Sys2Proof.Config
end

