-- ==== Sys2Proof/Machine/Ops.lean ====
section
/-! DEFINITION. The named operations over State that every meaning uses: reading and changing one link,
segment, post or call record, the timebase, and the output queues of the links (R158, R160, R161). -/

namespace Sys2Proof

/-- The other control link. -/
def Link.other : Link → Link
  | .a => .b
  | .b => .a

end Sys2Proof

namespace Sys2Proof.Machine

open Sys2Proof

/-- The 16 addresses of a segment, ascending. -/
def allAddrs : List Addr := List.finRange 16

/-- The 8 segments, ascending. -/
def allSegs : List SegId := List.finRange 8

/-- The 32 call records, ascending. -/
def allCalls : List CallNo := List.finRange 32

/-- The 4 channels of a link, ascending. -/
def allChannels : List ChanNo := List.finRange 4

/-- Silence: the sample 0. DESIGN CHOICE (log 14). -/
def silence : Sample := 0#16

/-! ### One record of State -/

/-- The value of one link. -/
def PerLink.get {α : Type} (p : PerLink α) : Link → α
  | .a => p.a
  | .b => p.b

/-- The pair with one link's value changed. -/
def PerLink.set {α : Type} (p : PerLink α) (l : Link) (x : α) : PerLink α :=
  match l with
  | .a => { p with a := x }
  | .b => { p with b := x }

/-- A link record. -/
def State.link (s : State) (l : Link) : LinkRec := s.links.get l

/-- Change one link record. -/
def modLink (l : Link) (f : LinkRec → LinkRec) (s : State) : State :=
  { s with links := s.links.set l (f (s.links.get l)) }

/-- A segment record. -/
def State.segment (s : State) (g : SegId) : Segment := s.segments[g]

/-- Change one segment record. -/
def modSegment (g : SegId) (f : Segment → Segment) (s : State) : State :=
  { s with segments := s.segments.set g (f s.segments[g]) }

/-- The Line Unit's part of a segment record. -/
def State.line (s : State) (g : SegId) : LineUnit := (s.segment g).line

/-- The Poll Scheduler's part of a segment record. -/
def State.poll (s : State) (g : SegId) : Poll := (s.segment g).poll

/-- The Path Switch's part of a segment record. -/
def State.path (s : State) (g : SegId) : Path := (s.segment g).path

/-- Change the Line Unit's part of a segment record. -/
def modLine (g : SegId) (f : LineUnit → LineUnit) (s : State) : State :=
  modSegment g (fun r => { r with line := f r.line }) s

/-- Change the Poll Scheduler's part of a segment record. -/
def modPoll (g : SegId) (f : Poll → Poll) (s : State) : State :=
  modSegment g (fun r => { r with poll := f r.poll }) s

/-- Change the Path Switch's part of a segment record. -/
def modPath (g : SegId) (f : Path → Path) (s : State) : State :=
  modSegment g (fun r => { r with path := f r.path }) s

/-- The dynamic parts of a post record. -/
def State.post (s : State) (p : PostId) : Post := (s.posts[p.seg])[p.addr]

/-- Change the dynamic parts of a post record. -/
def modPost (p : PostId) (f : Post → Post) (s : State) : State :=
  { s with posts := s.posts.set p.seg ((s.posts[p.seg]).set p.addr (f (s.post p))) }

/-- The configured part of a post record, none where the post is unconfigured. -/
def State.postConfig (s : State) (p : PostId) : Option PostConfig := (s.tables.posts[p.seg])[p.addr]

/-- The configured fields of a segment record. -/
def State.segmentConfig (s : State) (g : SegId) : SegmentConfig := s.tables.segments[g]

/-- A call record, none where it is free. -/
def State.call (s : State) (n : CallNo) : Option Call := s.calls[n]

/-- Put a call record, or free it. -/
def putCall (n : CallNo) (c : Option Call) (s : State) : State := { s with calls := s.calls.set n c }

/-- Change a call record in use; a free record stays free. -/
def modCall (n : CallNo) (f : Call → Call) (s : State) : State := putCall n ((s.call n).map f) s

/-- A channel of the channel table. -/
def State.channel (s : State) (l : Link) (c : ChanNo) : Channel := (s.link l).channels[c]

/-- Change a channel of the channel table. -/
def modChannel (l : Link) (c : ChanNo) (f : Channel → Channel) (s : State) : State :=
  modLink l (fun r => { r with channels := r.channels.set c (f r.channels[c]) }) s

/-- Change every post of a segment, in ascending address. -/
def modPostsOf (g : SegId) (f : Post → Post) (s : State) : State :=
  allAddrs.foldl (fun s a => modPost ⟨g, a⟩ f s) s

/-- The reference of call record `n` holding `c`. -/
def Call.ref (c : Call) (n : CallNo) : CallRef := ⟨n, c.sequence⟩

/-- The record a reference names: in use with that sequence (R74). -/
def State.callOf (s : State) (r : CallRef) : Option Call := (s.call r.number).filter (·.sequence = r.sequence)

/-! ### The timebase -/

/-- Milliseconds in a number of seconds. -/
def ms (seconds : Nat) : Nat := 1000 * seconds

/-- Bring the timebase at least to `t`. DESIGN CHOICE (log 3): a timer's expiry is taken no earlier than
the time the timer was set for. -/
def reach (t : Nat) (s : State) : State := { s with timebase := max s.timebase t }

/-- Bring the timebase at least to a timer's time, where the timer runs. -/
def reachTimer (t : Option Nat) (s : State) : State :=
  match t with
  | none => s
  | some t => reach t s

/-- Whole seconds left to a deadline (R101). -/
def State.secondsLeft (s : State) (deadline : Nat) : Nat := (deadline - s.timebase) / 1000

/-! ### Output queues -/

/-- The number of blocks at which notices are no longer queued (R160). -/
def queueRoom : Nat := 128

/-- Append a block to a link's output queue. -/
def enqueue (l : Link) (b : Block) (s : State) : State :=
  modLink l (fun r => { r with queue := r.queue ++ [b] }) s

/-- Queue a notice other than STARTED on one link, by that link's own test of state and room (R160). -/
def send (l : Link) (n : Notice) (s : State) : State :=
  if (s.link l).up then
    if (s.link l).queue.length < queueRoom then enqueue l (.notice n) s
    else modLink l (fun r => { r with overrun := true }) s
  else s

/-- Queue a notice on both links, each by its own test (R160). -/
def sendBoth (n : Notice) (s : State) : State := send .b n (send .a n s)

/-- Queue a command's response; a response is always queued (R158, R160). -/
def respond (l : Link) (tag : Tag) (command : CommandType) (r : Result) (s : State) : State :=
  enqueue l (.response tag command r) s

/-- One link as LINK_STATE carries it (R161). -/
def State.linkView (s : State) (l : Link) : LinkView :=
  { up := (s.link l).up, mode := (s.link l).mode, depth := (s.tables.links.get l).depth }

/-- Send LINK_STATE to both links (R142, R161). -/
def sendLinkState (s : State) : State := sendBoth (.linkState (s.linkView .a) (s.linkView .b)) s

/-- The STARTED notice as it stands (R161). -/
def State.startedNotice (s : State) : Notice :=
  .started s.supply.cause s.manager.image s.manager.revision s.clock.seconds s.clock.isSet

/-- Queue STARTED on a link where it is due: the link UP, LOADING ended, the flag no; whatever the number
of blocks standing (R160, R161). -/
def sendStartedIfDue (l : Link) (s : State) : State :=
  if (s.link l).up && s.supply.phase = .running && !(s.link l).startedSent then
    enqueue l (.notice s.startedNotice) s
  else s

/-- Whether the part is held in reset (R173). -/
def State.inReset (s : State) : Bool := s.supply.phase = .inReset

/-- Whether the part is in LOADING (R175). -/
def State.loading (s : State) : Bool := s.supply.phase = .loading

/-- Take a step only outside reset: a part held in reset does nothing but follow its supply, its RESET pin
and its time clock (R173, log 7). -/
def outsideReset (f : State → State) (s : State) : State := if s.inReset then s else f s

/-- Apply a change for each element of a list, in order. -/
def forEach {α : Type} (l : List α) (f : α → State → State) (s : State) : State := l.foldl (fun s x => f x s) s

end Sys2Proof.Machine
end

