-- ==== Sys2Proof/Machine/Operands.lean ====
section
/-! DEFINITION. The operand forms of commands: numbers as sent turned into the part's identifiers, with
their ranges (R159), call references (R74), enumerated values, expected revisions (R166), and the order
of a command's checks. -/

namespace Sys2Proof.Machine

open Sys2Proof

/-- A number counted from 1, within `k`. -/
def oneBased (k n : Nat) : Option (Fin k) :=
  if h : 1 ≤ n ∧ n ≤ k then some ⟨n - 1, by omega⟩ else none

/-- A number counted from 0, below `k`. -/
def zeroBased (k n : Nat) : Option (Fin k) := if h : n < k then some ⟨n, h⟩ else none

/-- Segment number 1 to 8. -/
def segmentOf (n : Nat) : Option SegId := oneBased 8 n

/-- Channel number 1 to 4. -/
def channelOf (n : Nat) : Option ChanNo := oneBased 4 n

/-- Call number 1 to 32. -/
def callNumberOf (n : Nat) : Option CallNo := oneBased 32 n

/-- A post whose segment lies in 1 to 8 and address in 1 to 16. -/
def postOf (p : PostArg) : Option PostId :=
  match segmentOf p.segment, oneBased 16 p.address with
  | some g, some a => some ⟨g, a⟩
  | _, _ => none

/-- The value of an enumerated operand, where its code is in 12.4. -/
def codedValue {α : Type} : Coded α → Option α
  | .named x => some x
  | .other _ => none

/-- A post's carriageway: 1 or 2, BOTH being for windows only (12.4). -/
def postCarriageway : Coded CarriagewayCode → Option Carriageway
  | .named .one => some .one
  | .named .two => some .two
  | .named .both => none
  | .other _ => none

/-- The call a command's reference names, with its record number: in use with that sequence (R74). -/
def State.lookup (s : State) (c : CallArg) : Option (CallNo × Call) :=
  match callNumberOf c.number with
  | none => none
  | some n =>
    match s.call n with
    | none => none
    | some r => if r.sequence = c.sequence then some (n, r) else none

/-- Whether a write's expected revision is present and not current (R166). -/
def State.stale (s : State) (expected : Option Counter) : Bool :=
  match expected with
  | none => false
  | some r => r ≠ s.manager.revision

/-- The first of a command's checks that applies gives the response (R159). -/
def firstRefusal : List (Bool × RefusalCode) → Option RefusalCode
  | [] => none
  | (true, code) :: _ => some code
  | (false, _) :: rest => firstRefusal rest

/-- The five states of an owned call (R73). -/
def CallState.owned : CallState → Bool
  | .answered => true
  | .connected => true
  | .held => true
  | .lineLost => true
  | .ringing => true
  | .queued => false
  | .offered => false
  | .transferring => false

/-- The three states of a waiting call (R73, R79). -/
def CallState.waiting (c : CallState) : Bool := !c.owned

/-- The feed states in which a segment's posts are in service (R15). -/
def FeedState.inService : FeedState → Bool
  | .discovery => true
  | .active => true
  | .isolating => true
  | .off => false
  | .powering => false
  | .feedLost => false
  | .tripped => false
  | .locked => false

/-- The feed states in which the feed switch is closed (R2). -/
def FeedState.powered : FeedState → Bool
  | .powering => true
  | .discovery => true
  | .active => true
  | .isolating => true
  | .feedLost => true
  | .off => false
  | .tripped => false
  | .locked => false

end Sys2Proof.Machine
end

