-- ==== Sys2Proof/Machine/Flags.lean ====
section
/-! DEFINITION. The flags and counts the part derives from its state: the waiting order and waiting count
(R79, R90), unsaved changes (R172), the offer counts (R99), decline marks that hold (R107). -/

namespace Sys2Proof.Machine

open Sys2Proof

/-- A value held at its limit (R77: a priority is held at 255). -/
def holdAt (limit n : Nat) : Nat := min limit n

/-- Place a call in a list ordered by priority descending; among equals it stands behind (R79). -/
def placeByPriority (x : CallNo × Call) : List (CallNo × Call) → List (CallNo × Call)
  | [] => [x]
  | y :: ys => if y.2.priority < x.2.priority then x :: y :: ys else y :: placeByPriority x ys

/-- Order calls by priority descending, those of equal priority as they stood (R79). -/
def orderByPriority (l : List (CallNo × Call)) : List (CallNo × Call) :=
  l.foldl (fun acc x => placeByPriority x acc) []

/-- The calls in use in creation order (R74). -/
def State.callsInOrder (s : State) : List (CallNo × Call) :=
  s.created.filterMap (fun n => (s.call n).map (fun c => (n, c)))

/-- The waiting calls in the waiting order: priority descending, older first (R79). -/
def State.waitingOrder (s : State) : List (CallNo × Call) :=
  orderByPriority (s.callsInOrder.filter (fun x => x.2.state.waiting))

/-- The waiting count: waiting calls and pending posts (R90). -/
def State.waitingCount (s : State) : Nat := s.waitingOrder.length + s.pendingList.length

/-- The calls a link owns, in creation order. -/
def State.ownedBy (s : State) (l : Link) : List (CallNo × Call) :=
  s.callsInOrder.filter (fun x => x.2.owner = some l)

/-- Unsaved changes as READ_STATUS reports them (R172). -/
def State.unsavedChanges (s : State) : Bool :=
  match s.manager.image with
  | .valid r => s.manager.revision ≠ r
  | .saving =>
    match s.manager.save with
    | some v => s.manager.revision ≠ v.revision
    | none => true
  | .invalid => true

/-- A link that takes new calls: UP and ACCEPTING. -/
def State.taking (s : State) (l : Link) : Bool := (s.link l).up && (s.link l).mode = .accepting

/-- Whether a call's decline mark is a mark of `l` that holds: while the other link takes calls (R107). -/
def State.markHolds (s : State) (c : Call) (l : Link) : Bool := c.declineMark = some l && s.taking l.other

/-- Evaluate the waiting count and the queue-load flag (R90). -/
def evaluateLoad (s : State) : State :=
  let count := s.waitingCount
  if !s.queueLoad && 16 ≤ count then
    sendBoth (.queueLoad true count s.pendingList.length) { s with queueLoad := true }
  else if s.queueLoad && count ≤ 12 then
    sendBoth (.queueLoad false count s.pendingList.length) { s with queueLoad := false }
  else s

end Sys2Proof.Machine
end

