-- ==== Sys2Proof/Machine/Location.lean ====
section
/-! DEFINITION. The Location Unit (04): ranging, the filtered distance, verification, serial learning, the
probable post and the location record; and the Table Manager's count of a configuration change (R165,
R166), which learning makes. -/

namespace Sys2Proof.Machine

open Sys2Proof

/-! ### Configuration changes -/

/-- Count one configuration change: the revision advances, TABLES_CHANGED goes to both links (R165, R166). -/
def countChange (item : TableItem) (source : ChangeSource) (s : State) : State :=
  let s := { s with manager := { s.manager with revision := s.manager.revision + 1 } }
  sendBoth (.tablesChanged s.manager.revision item source) s

/-- Store the configured part of a post. -/
def setPostConfig (p : PostId) (c : Option PostConfig) (s : State) : State :=
  { s with tables := { s.tables with posts := s.tables.posts.set p.seg ((s.tables.posts[p.seg]).set p.addr c) } }

/-- The configured place of a post (R68). -/
def PostConfig.place (c : PostConfig) : Place :=
  { chainage := c.chainage, carriageway := c.carriageway, side := c.side, road := c.road }

/-! ### Routing windows and places -/

/-- The window size in metres: 2 to the power 10 + code (R95). -/
def Window.size (w : Window) : Nat := 2 ^ (10 + w.sizeCode.val)

/-- Whether a window's carriageway is the post's, or BOTH (R70, R96). -/
def Window.carries (w : Window) (c : Carriageway) : Bool :=
  match w.carriageway, c with
  | .both, _ => true
  | .one, .one => true
  | .two, .two => true
  | .one, .two => false
  | .two, .one => false

/-- Whether a window is enabled and covers a place (R70, R95). -/
def Window.covers (w : Window) (p : Place) : Bool :=
  w.enabled && p.chainage / w.size = w.base / w.size && w.carries p.carriageway

/-- The section label of a place: the first enabled window that covers it (R70). -/
def State.labelOf (s : State) (p : Place) : Option Nat :=
  (s.tables.windows.toList.find? (·.covers p)).map (·.label)

/-! ### Ranging (R57 to R59) -/

/-- The size of the difference of two distances. -/
def distanceBetween (x y : Nat) : Nat := (x - y) + (y - x)

/-- Stages 1 and 2: the sample of a delay D under turnaround T and cable constant K (R57, R58). -/
def rangeSample (delay turnaround cableConstant : Nat) : LastSample :=
  if delay < turnaround then .early
  else
    let metres := ((delay - turnaround) * cableConstant + 50) / 100
    if 65535 < metres then .distance 65535 true else .distance metres false

/-- Stage 3: the filtered distance moves an eighth of the difference toward the sample, truncated toward
zero, and at least one metre where they differ (R59). -/
def filterDistance (filtered : Option Nat) (metres : Nat) : Nat :=
  match filtered with
  | none => metres
  | some f =>
    let d : Int := (metres : Int) - (f : Int)
    let step : Int := if d.tdiv 8 = 0 then d.sign else d.tdiv 8
    ((f : Int) + step).toNat

/-- F after a sample: an EARLY sample leaves it (R57). -/
def nextFiltered (filtered : Option Nat) : LastSample → Option Nat
  | .early => filtered
  | .distance metres _ => some (filterDistance filtered metres)

/-- The mismatch count after a sample, against C within the tolerance (R64). -/
def nextMismatch (count tolerance : Nat) (sample : LastSample) (filtered cable : Option Nat) : Nat :=
  match sample, filtered, cable with
  | .distance _ _, some f, some c => if tolerance < distanceBetween f c then min 3 (count + 1) else 0
  | .early, _, _ => count
  | .distance _ _, none, _ => count
  | .distance _ _, some _, none => count

/-- Whether a stored serial and a reported one are compared and differ (R61, R63). -/
def serialsDiffer (stored reported : Option Serial) : Bool :=
  match stored, reported with
  | some x, some y => y ≠ 0#32 && x ≠ y
  | none, _ => false
  | some _, none => false

/-- Stage 4: the verification state, by the first case that holds (R63). -/
def judge (stored : Option Serial) (reported : Serial) (cable filtered : Option Nat) (mismatch : Nat) : Verification :=
  if serialsDiffer stored (some reported) then .identityMismatch
  else if cable.isNone || filtered.isNone then .unranged
  else if mismatch = 3 then .distanceMismatch
  else .verified

/-! ### The probable post and the location record (R67, R68) -/

/-- The configured post nearest to a distance: smallest difference, then lowest address (R67). -/
def nearestPost (s : State) (g : SegId) (f : Nat) : Option PostId :=
  let candidates := allAddrs.filterMap (fun a =>
    ((s.postConfig ⟨g, a⟩).bind (·.cable)).map (fun c => (a, distanceBetween f c)))
  (candidates.foldl (fun best x =>
    match best with
    | none => some x
    | some b => if x.2 < b.2 then some x else some b) none).map (fun x => ⟨g, x.1⟩)

/-- The probable post: in DISTANCE_MISMATCH with F present (R67). -/
def State.probablePost (s : State) (p : PostId) : Option PostId :=
  if (s.post p).verification = .distanceMismatch then (s.post p).filtered.bind (nearestPost s p.seg) else none

/-- Build a post's location record from its post record as it stands (R68, R69). -/
def State.locationOf (s : State) (p : PostId) : LocationRecord :=
  let place := (s.postConfig p).map (·.place)
  { post := p, place := place, label := place.bind s.labelOf, verification := (s.post p).verification,
    filtered := (s.post p).filtered, probable := s.probablePost p, serial := (s.post p).lastSerial }

/-! ### Mismatch notices, learning, clearing -/

/-- A mismatch state (R66). -/
def Verification.mismatch : Verification → Bool
  | .distanceMismatch => true
  | .identityMismatch => true
  | .unranged => false
  | .verified => false

/-- Send POST_MISMATCH for a change of verification state to or from a mismatch state (R66). -/
def sendMismatch (p : PostId) (previous : Verification) (s : State) : State :=
  let new := (s.post p).verification
  if new ≠ previous && (new.mismatch || previous.mismatch) then
    sendBoth (.postMismatch p new previous (s.post p).filtered (s.probablePost p) (s.post p).lastSerial
      ((s.postConfig p).bind (·.serial))) s
  else s

/-- Learn the reported serial of a configured post whose stored serial is absent (R65). -/
def learnSerial (p : PostId) (reported : Serial) (s : State) : State :=
  match s.postConfig p with
  | none => s
  | some c =>
    if c.serial.isNone && reported ≠ 0#32 then
      countChange (.post p) .learned (setPostConfig p (some { c with serial := some reported }) s)
    else s

/-- The Location Unit takes an accepted report: the second step of R25 (R56 to R66). POST_MISMATCH goes out before the
serial is stored, so it carries the stored serial that the report was judged against: DESIGN CHOICE (log 36). -/
def locateReport (p : PostId) (delay : Nat) (reported : Serial) (s : State) : State :=
  let cfg := s.segmentConfig p.seg
  let old := s.post p
  let stored := s.postConfig p
  let cable := stored.bind (·.cable)
  let sample := rangeSample delay cfg.turnaround cfg.cableConstant
  let filtered := nextFiltered old.filtered sample
  let mismatch := nextMismatch old.mismatch cfg.tolerance sample filtered cable
  let verification := judge (stored.bind (·.serial)) reported cable filtered mismatch
  let s := modPost p (fun r => { r with filtered := filtered, mismatch := mismatch, verification := verification,
                                        lastSample := some sample }) s
  learnSerial p reported (sendMismatch p old.verification s)

/-- Reset a post's location part at a write of its configured part (R61). -/
def resetLocation (p : PostId) (s : State) : State :=
  let old := s.post p
  let verification : Verification :=
    if serialsDiffer ((s.postConfig p).bind (·.serial)) old.lastSerial then .identityMismatch else .unranged
  let s := modPost p (fun r => { r with filtered := none, mismatch := 0, lastSample := none,
                                        verification := verification }) s
  sendMismatch p old.verification s

/-- Clear F of a post (R60). -/
def clearFiltered (p : PostId) (s : State) : State := modPost p (fun r => { r with filtered := none }) s

end Sys2Proof.Machine
end

