-- ==== Sys2Proof/Machine/Classifier.lean ====
section
/-! DEFINITION. The Event Classifier (03): the evaluation of a report's payload against the eight entries,
the call-class result, the alarm set, and the escalation of a waiting call. -/

namespace Sys2Proof.Machine

open Sys2Proof

/-- The eight entry numbers, ascending. -/
def allEntries : List EntryNo := List.finRange 8

/-- The payload positions an entry tests, in increasing order: its mask laid at the effective offset, 4 more
for an EXTENDED report (R46). -/
def ClassEntry.positions (e : ClassEntry) (format : ReportFormat) : List Nat :=
  let start := match format with
    | .basic => e.offset
    | .extended => e.offset + 4
  ((List.range 24).filter (fun j => e.mask.getLsbD j)).map (fun j => start + j)

/-- The raw match of an entry (R46, R47). -/
def ClassEntry.rawMatch (e : ClassEntry) (format : ReportFormat) (payload : List Byte) : Bool :=
  let positions := e.positions format
  if positions.isEmpty then true
  else if positions.any (fun i => payload.length ≤ i) then false
  else crc16 (positions.map (fun i => payload.getD i 0#8)) = e.crc

/-- The result of an entry, joined with the result before it where it chains (R48). -/
def ClassEntry.result (e : ClassEntry) (before : Bool) (format : ReportFormat) (payload : List Byte) : Bool :=
  if e.enabled then
    let own := if e.inverse then !(e.rawMatch format payload) else e.rawMatch format payload
    if e.chain then own && before else own
  else false

/-- The entries with their results, from the tunnel condition on (R48). -/
def evaluateEntries (format : ReportFormat) (payload : List Byte) :
    Bool → List (EntryNo × ClassEntry) → List (EntryNo × ClassEntry × Bool)
  | _, [] => []
  | before, (n, e) :: rest =>
    let r := e.result before format payload
    (n, e, r) :: evaluateEntries format payload r rest

/-- The tunnel condition of a post: its configured structure is TUNNEL (R48). -/
def State.tunnel (s : State) (p : PostId) : Bool := ((s.postConfig p).map (·.road)) = some .tunnel

/-- Every entry with its result for a report of a post (R45). -/
def State.evaluate (s : State) (p : PostId) (format : ReportFormat) (payload : List Byte) :
    List (EntryNo × ClassEntry × Bool) :=
  evaluateEntries format payload (s.tunnel p) (allEntries.map (fun n => (n, s.tables.classes[n])))

/-- The call-class result: the reporting CALL entry of highest weight that is true, the lower number
between equals, else DEFAULT with its weight (R49). -/
def classResult (defaultWeight : Nat) (results : List (EntryNo × ClassEntry × Bool)) : ClassResult :=
  (results.foldl (fun best x =>
    if x.2.2 && x.2.1.reports && x.2.1.kind = .call then
      match best with
      | none => some (⟨.entry x.1, x.2.1.weight⟩ : ClassResult)
      | some b => if b.weight < x.2.1.weight then some ⟨.entry x.1, x.2.1.weight⟩ else some b
    else best) none).getD ⟨.default, defaultWeight⟩

/-- The report's alarm set: the reporting ALARM entries that are true (R50). -/
def alarmSet (results : List (EntryNo × ClassEntry × Bool)) : List EntryNo :=
  (results.filter (fun x => x.2.2 && x.2.1.reports && x.2.1.kind = .alarm)).map (·.1)

/-- Compare the report's alarm set with the post's and send what changed, in ascending number (R50). -/
def updateAlarms (p : PostId) (found : List EntryNo) (s : State) : State :=
  let old := (s.post p).alarms
  let s := forEach allEntries (fun e s =>
    if found.contains e && !old.contains e then sendBoth (.alarmRaised p e (s.locationOf p)) s
    else if old.contains e && !found.contains e then sendBoth (.alarmCleared p e) s
    else s) s
  modPost p (fun r => { r with alarms := found }) s

/-- Escalate a waiting EMERGENCY call of the post to a heavier call-class result (R52). -/
def escalate (p : PostId) (result : ClassResult) (s : State) : State :=
  match (s.post p).call with
  | none => s
  | some ref =>
    match s.call ref.number with
    | none => s
    | some c =>
      if c.kind = .emergency && c.state.waiting && c.weight < result.weight then
        putCall ref.number (some { c with cls := result.cls, weight := result.weight,
                                          priority := holdAt 255 (c.priority + (result.weight - c.weight)),
                                          location := s.locationOf p }) s
      else s

/-- The Event Classifier takes an accepted report: the third step of R25 (R45 to R52). -/
def classifyReport (p : PostId) (format : ReportFormat) (payload : List Byte) (s : State) : State × ClassResult :=
  let results := s.evaluate p format payload
  let result := classResult s.tables.defaults.weight results
  (escalate p result (updateAlarms p (alarmSet results) s), result)

end Sys2Proof.Machine
end

