-- ==== Sys2Proof/Machine/Offers.lean ====
section
/-! DEFINITION. The Offer Engine (06, 09): home link and phase, eligibility and offer depth, filling a link,
withdrawal, decline, and the end of a drain. -/

namespace Sys2Proof.Machine

open Sys2Proof

/-! ### Home link (R96) -/

/-- The class bit of a window's class mask: entries 0 to 7, then DEFAULT (R95). -/
def CallClass.bit : CallClass → Nat
  | .entry n => n.val
  | .default => 8

/-- The routing window that fixes a call's home link: the first enabled one that covers the post's place
and holds the call's class (R96). -/
def State.windowFor (s : State) (p : PostId) (cls : CallClass) : Option Window :=
  (s.postConfig p).bind (fun c =>
    s.tables.windows.toList.find? (fun w => w.covers c.place && w.classMask.getLsbD cls.bit))

/-- A call's home link and overflow time in seconds, from its window or the defaults (R96). -/
def State.homeFor (s : State) (p : PostId) (cls : CallClass) : Link × Nat :=
  match s.windowFor p cls with
  | some w => (w.home, w.overflow)
  | none => (s.tables.defaults.home, s.tables.defaults.overflow)

/-! ### One offer -/

/-- Put a link's offer of a call in or out of its offered set, with the link's outstanding-offer count (R99). -/
def setOffer (n : CallNo) (l : Link) (offered : Bool) (s : State) : State :=
  match s.call n with
  | none => s
  | some c =>
    if c.offered.get l = offered then s
    else
      modLink l (fun r => { r with offers := if offered then r.offers + 1 else r.offers - 1 })
        (putCall n (some { c with offered := c.offered.set l offered }) s)

/-- A call in OFFERED left with an empty offered set returns to QUEUED (R102). -/
def requeue (n : CallNo) (s : State) : State :=
  modCall n (fun c => if c.state = .offered && !c.offered.a && !c.offered.b then { c with state := .queued } else c) s

/-- CALL_OFFERED as it stands for a call (R101). -/
def State.offerNotice (s : State) (n : CallNo) (c : Call) : Notice :=
  .callOffered (c.ref n) c (c.overflowAt.map s.secondsLeft)

/-- Offer a call to a link: it joins the offered set, a QUEUED call becomes OFFERED, and CALL_OFFERED goes to
the link (R100). -/
def offerTo (n : CallNo) (l : Link) (s : State) : State :=
  let s := setOffer n l true s
  let s := modCall n (fun c => if c.state = .queued then { c with state := .offered } else c) s
  match s.call n with
  | none => s
  | some c => send l (s.offerNotice n c) s

/-- Withdraw a link's offer of a call, with CALL_WITHDRAWN where a reason is given (R108). -/
def withdraw (l : Link) (reason : Option WithdrawReason) (n : CallNo) (s : State) : State :=
  match s.call n with
  | none => s
  | some c =>
    if c.offered.get l then
      let s := requeue n (setOffer n l false s)
      match reason with
      | none => s
      | some r => send l (.callWithdrawn (c.ref n) c.post r) s
    else s

/-! ### Filling a link (R99, R100, R150) -/

/-- A TRANSFERRING call eligible for a link, outside the depth and the phase (R150). -/
def State.eligibleTransfer (s : State) (c : Call) (l : Link) : Bool :=
  (s.link l).up && ((s.link l).mode = .accepting || (s.link l).mode = .draining) && !s.markHolds c l

/-- A QUEUED or OFFERED call eligible for a link (R99). -/
def State.eligible (s : State) (c : Call) (l : Link) : Bool :=
  s.taking l && (s.link l).offers < (s.tables.links.get l).depth &&
    (c.phase = some .openToBoth || c.home = some l) && !s.markHolds c l

/-- The two steps of filling a link, over the waiting order: TRANSFERRING calls, then the others while the
link's count is below its depth (R100). -/
def fillLink (l : Link) (s : State) : State :=
  let order := s.waitingOrder.map (·.1)
  let s := forEach order (fun n s =>
    match s.call n with
    | none => s
    | some c =>
      if c.state = .transferring && !c.offered.get l && s.eligibleTransfer c l then offerTo n l s else s) s
  forEach order (fun n s =>
    match s.call n with
    | none => s
    | some c =>
      if (c.state = .queued || c.state = .offered) && !c.offered.get l && s.eligible c l then offerTo n l s
      else s) s

/-- Fill both links at the end of an event (R100). -/
def fillBoth (s : State) : State := fillLink .b (fillLink .a s)

/-! ### Phase -/

/-- Move a call to OPEN: its overflow timer stops and its deadline becomes absent (R98). -/
def openCall (n : CallNo) (s : State) : State :=
  modCall n (fun c => { c with phase := some .openToBoth, overflowAt := none }) s

/-- Open every HOME call homed on a link in QUEUED or OFFERED (R98). -/
def openHomedOn (l : Link) (s : State) : State :=
  forEach s.created (fun n s =>
    match s.call n with
    | none => s
    | some c =>
      if (c.state = .queued || c.state = .offered) && c.phase = some .home && c.home = some l then openCall n s
      else s) s

/-- Withdraw a link's offers of the waiting calls that meet a test (R108). Several go in the waiting order: DESIGN
CHOICE, as the rules give their notices no order (log 34). -/
def withdrawWhere (l : Link) (reason : Option WithdrawReason) (test : Call → Bool) (s : State) : State :=
  forEach (s.waitingOrder.map (·.1)) (fun n s =>
    match s.call n with
    | none => s
    | some c => if test c then withdraw l reason n s else s) s

/-- Remove every offer of a call, with no CALL_WITHDRAWN (R81). -/
def removeOffers (n : CallNo) (s : State) : State := setOffer n .b false (setOffer n .a false s)

/-- Withdraw a link's last offers in the waiting order until its calls in OFFERED state number at most its
depth (R109). -/
def withdrawToDepth (l : Link) (depth : Nat) (s : State) : State :=
  let held := (s.waitingOrder.filter (fun x => x.2.state = .offered && x.2.offered.get l)).map (·.1)
  forEach (held.reverse.take (held.length - depth)) (withdraw l (some .depth)) s

/-! ### Drains (R145) -/

/-- The end of a drain, where the link is DRAINING and owns no call (R145). -/
def endDrain (l : Link) (s : State) : State :=
  if (s.link l).mode = .draining && (s.ownedBy l).isEmpty then
    let s := modLink l (fun r => { r with mode := .closed }) s
    let s := withdrawWhere l (some .handover) (fun c => c.state = .transferring) s
    let s := sendLinkState s
    let s := sendBoth (.handoverDone l .finish (s.link l).transfers) s
    fillLink l.other s
  else s

/-- The end of an event of the Call Manager: the waiting count is evaluated, a drain may end, and both links
are filled (R90, R100, R145). -/
def endOfCallEvent (s : State) : State := fillBoth (endDrain .b (endDrain .a (evaluateLoad s)))

end Sys2Proof.Machine
end

