-- ==== Sys2Proof/Machine/Orders.lean ====
section
/-! DEFINITION. The order queue (R31), the stopping orders and what they do to the line part (R23), and the
return to NORMAL tempo (R36). -/

namespace Sys2Proof.Machine

open Sys2Proof

/-- Whether order `o` is a stopping order of the starting order `started` (R23). -/
def Order.stops (o started : Order) : Bool :=
  match o, started with
  | .deselect, .select => true
  | .ringOff, .ringOn => true
  | .echoOff, .echoOn => true
  | .clear, .select => true
  | .clear, .ringOn => true
  | .clear, .echoOn => true
  | _, _ => false

/-- The line part's flags at the request of an order: a stopping order puts its flags to no (R21, R23). -/
def Post.stopBy (o : Order) (r : Post) : Post :=
  { r with selected := r.selected && !o.stops .select, ringing := r.ringing && !o.stops .ringOn,
           echo := r.echo && !o.stops .echoOn }

/-- A new pass begins at the current sweep position (R34). -/
def Poll.newPass (q : Poll) : Poll := { q with covered := 0 }

/-- The return to NORMAL tempo: an economy pass ends and a new pass begins (R36). -/
def Poll.toNormal (q : Poll) : Poll :=
  if q.tempo = .economy then
    { q with tempo := .normal, economyPass := false, economyDue := none, covered := 0 }
  else q

/-- Put an order in the queue: in place of the unsent entry for its address, or at the tail (R31). -/
def Poll.enter (a : Addr) (o : Order) (q : Poll) : Poll :=
  if q.queue.any (fun e => e.addr = a) then
    { q with queue := q.queue.map (fun e => if e.addr = a then ⟨a, o⟩ else e) }
  else ({ q with queue := q.queue ++ [⟨a, o⟩] } : Poll).toNormal

/-- A starting order already sent to the address is overtaken by its stopping order (R23, R117, log 16). -/
def Poll.overtake (a : Addr) (o : Order) (q : Poll) : Poll :=
  { q with sent := q.sent.map (fun w => if w.addr = a && o.stops w.order then { w with overtaken := true } else w) }

/-- Request an order for a post (R31): its flags change at the request (R21); out of service the request is
discarded. -/
def requestOrder (p : PostId) (o : Order) (s : State) : State :=
  let s := modPost p (Post.stopBy o) s
  if (s.line p.seg).feed.inService then modPoll p.seg (fun q => (q.overtake p.addr o).enter p.addr o) s else s

/-- Whether an order for a post is queued, or sent and unanswered with no stopping order since (R118, R133,
R140). -/
def State.outstanding (s : State) (p : PostId) (o : Order) : Bool :=
  (s.poll p.seg).queue.any (fun e => e.addr = p.addr && e.order = o) ||
    (s.poll p.seg).sent.any (fun w => w.addr = p.addr && w.order = o && !w.overtaken)

/-- A post that can be sent an order it obeys: PRESENT or MUTED (R81, R118, R140). -/
def State.reachable (s : State) (p : PostId) : Bool :=
  (s.post p).presence = .present || (s.post p).presence = .muted

/-- A call exists on the segment, as the Call Manager reports it: ECONOMY ends (R36, R76). -/
def tellCall (g : SegId) (s : State) : State := modPoll g Poll.toNormal s

end Sys2Proof.Machine
end

