-- ==== Sys2Proof/Machine/Paths.lean ====
section
/-! DEFINITION. The Path Switch's records (07): the channel table, the segment path, the path request list,
grant, release, PATH_WAIT, and the abandonment of a line test (R140). -/

namespace Sys2Proof.Machine

open Sys2Proof

/-! ### The line test's shift register (R138) -/

/-- One step of the test's shift register: the feedback is bits 0, 2, 3 and 4 (R138). -/
def testShift (r : BitVec 8) : BitVec 8 :=
  let feedback := r.getLsbD 0 ^^ r.getLsbD 2 ^^ r.getLsbD 3 ^^ r.getLsbD 4
  (r >>> 1) ||| (if feedback then 0x80#8 else 0x00#8)

/-- The test sequence as it starts: the register at 01 hex and no sample sent (R138). -/
def TestSignal.start : TestSignal := { register := 0x01#8, sample := 0 }

/-! ### Channels (R119, R121) -/

/-- The channels of a call with their links and roles: the owner channel on the owner link, the joined
channel on the other (R119). -/
def Call.channels (c : Call) : List (Link × ChanNo × ChannelRole) :=
  match c.owner with
  | none => []
  | some l =>
    (c.ownerChannel.map (fun k => (l, k, ChannelRole.owner))).toList ++
      (c.joinedChannel.map (fun k => (l.other, k, ChannelRole.joined))).toList

/-- A channel of a call: CONNECTED exactly while its call is CONNECTED, RESERVED otherwise; the waiting tone
plays on it while its call is ANSWERED, from its start there; nothing is heard yet on one that was FREE (R119, R121). -/
def Channel.ofCall (n : CallNo) (role : ChannelRole) (st : CallState) (ch : Channel) : Channel :=
  { use := if st = .connected then .connected n role else .reserved n role
    waitingTone := if st = .answered then some (ch.waitingTone.getD 0) else none
    heard := if ch.use = .free then silence else ch.heard }

/-- Bring the channel table to a call's record: its channels as its state gives. -/
def placeChannels (n : CallNo) (s : State) : State :=
  match s.call n with
  | none => s
  | some c => forEach c.channels (fun x s => modChannel x.1 x.2.1 (Channel.ofCall n x.2.2 c.state) s) s

/-- Put a call in a state, its channels with it. -/
def setCallState (n : CallNo) (st : CallState) (s : State) : State :=
  placeChannels n (modCall n (fun c => { c with state := st }) s)

/-- Make a channel FREE; its tone stops (R119, R121). -/
def freeChannel (l : Link) (k : ChanNo) (s : State) : State := modChannel l k (fun _ => Channel.atReset) s

/-- Make every channel of a call FREE. -/
def freeChannels (c : Call) (s : State) : State := forEach c.channels (fun x s => freeChannel x.1 x.2.1 s) s

/-- Whether a channel is FREE. -/
def State.channelFree (s : State) (l : Link) (k : ChanNo) : Bool := (s.channel l k).use = .free

/-! ### Grant (R115, R116, R138) -/

/-- The call requests of a segment in grant order: priority descending, older first (R115). -/
def State.callRequests (s : State) (g : SegId) : List (CallNo × Call) :=
  orderByPriority (s.callsInOrder.filter (fun x =>
    s.requests.any (fun r => r.claimant = .call x.1 && r.post.seg = g)))

/-- Grant the path to a call: it holds the path, and SELECT is requested (R116). -/
def grantCall (g : SegId) (n : CallNo) (c : Call) (s : State) : State :=
  let s := { s with requests := s.requests.filter (fun r => r.claimant ≠ .call n) }
  let s := modPath g (fun q => { q with holder := .call (c.ref n), grant := some ⟨c.ref n, false⟩ }) s
  let s := modCall n (fun c => { c with pathHeld := true }) s
  requestOrder c.post .select s

/-- Grant the path to the segment's line test: STARTING, and ECHO_ON is requested (R138). -/
def grantTest (g : SegId) (t : TestRecord) (s : State) : State :=
  let s := { s with requests := s.requests.filter (fun r => !(r.claimant = .test && r.post.seg = g)) }
  let s := modPath g (fun q => { q with holder := .test, test := some { t with phase := .starting } }) s
  requestOrder ⟨g, t.addr⟩ .echoOn s

/-- Whether the segment's line test has its request in the list and its post PRESENT. -/
def State.testQualifies (s : State) (g : SegId) (t : TestRecord) : Bool :=
  t.phase = .waiting && s.requests.any (fun r => r.claimant = .test && r.post.seg = g) &&
    (s.post ⟨g, t.addr⟩).presence = .present

/-- Evaluate the grant of a segment's path: free, the segment ACTIVE, and the first qualifying request, a
call before the line test (R115). -/
def evaluateGrant (g : SegId) (s : State) : State :=
  if (s.path g).holder = .none && (s.line g).feed = .active then
    match (s.callRequests g).find? (fun x => (s.post x.2.post).presence = .present) with
    | some (n, c) => grantCall g n c s
    | none =>
      match (s.path g).test with
      | some t => if s.testQualifies g t then grantTest g t s else s
      | none => s
  else s

/-! ### Line tests abandoned (R140) -/

/-- Abandon the segment's line test, but for the grant that follows (R140). -/
def abandonTest (g : SegId) (cause : AbandonCause) (s : State) : State :=
  match (s.path g).test with
  | none => s
  | some t =>
    let p : PostId := ⟨g, t.addr⟩
    let s := { s with requests := s.requests.filter (fun r => !(r.claimant = .test && r.post.seg = g)) }
    let s :=
      if t.phase ≠ .waiting && s.reachable p && ((s.post p).echo || s.outstanding p .echoOn) then
        requestOrder p .echoOff s
      else s
    let s := modPath g (fun q =>
      { q with lastTest := some .abandoned, test := none, signal := none,
               holder := if t.phase = .waiting then q.holder else .none }) s
    sendBoth (.testResult p t.requester .abandoned (some cause)) s

/-- Abandon the segment's line test and evaluate the grant (R140). -/
def abandonTestAndGrant (g : SegId) (cause : AbandonCause) (s : State) : State :=
  if (s.path g).test.isSome then evaluateGrant g (abandonTest g cause s) else s

/-! ### Requests and release (R114, R116, R118) -/

/-- Make a call's path request: a line test of the segment is preempted, the grant is evaluated, and a call
not granted at once sends PATH_WAIT to its owner (R114, R115, R116). -/
def makeRequest (n : CallNo) (s : State) : State :=
  match s.call n with
  | none => s
  | some c =>
    let g := c.post.seg
    let s := { s with requests := s.requests ++ [⟨.call n, c.post⟩] }
    let s := evaluateGrant g (abandonTest g .preempted s)
    match s.call n with
    | none => s
    | some d =>
      match d.pathHeld, c.owner with
      | false, some l =>
        let ahead := ((s.callRequests g).takeWhile (fun x => x.1 ≠ n)).length
        send l (.pathWait (c.ref n) c.post (s.path g).holder ahead) s
      | false, none => s
      | true, _ => s

/-- Withdraw a call's path request (R114). -/
def withdrawRequest (n : CallNo) (s : State) : State :=
  { s with requests := s.requests.filter (fun r => r.claimant ≠ .call n) }

/-- Release the path a call holds: holder, path held and grant mark go, DESELECT is requested where the post
is selected or its SELECT is outstanding, the hold tone stops, and the grant is evaluated (R118). -/
def releasePath (n : CallNo) (s : State) : State :=
  match s.call n with
  | none => s
  | some c =>
    if c.pathHeld then
      let g := c.post.seg
      let s := modPath g (fun q => { q with holder := .none, grant := none, holdTone := none }) s
      let s := modCall n (fun c => { c with pathHeld := false }) s
      let s :=
        if s.reachable c.post && ((s.post c.post).selected || s.outstanding c.post .select) then
          requestOrder c.post .deselect s
        else s
      evaluateGrant g s
    else s

/-- What the Path Switch does as a call leaves ANSWERED or CONNECTED for a state without the path: its
request is withdrawn, its path released (R118, R127). -/
def giveUpPath (n : CallNo) (s : State) : State := releasePath n (withdrawRequest n s)

/-- Confirm a SELECT: the post is selected, the grant mark records it, the call and its channels are
CONNECTED (R117). -/
def confirmSelect (p : PostId) (n : CallNo) (s : State) : State :=
  let s := modPost p (fun r => { r with selected := true }) s
  let s := modPath p.seg (fun q => { q with grant := q.grant.map (fun m => { m with answered := true }) }) s
  setCallState n .connected s

/-- A SELECT's answer, handed to the Path Switch with whether a stopping order overtook it: confirmed where
the grant mark names the post's call, ANSWERED, with its SELECT unanswered (R117). -/
def selectAnswered (p : PostId) (overtaken : Bool) (s : State) : State :=
  match (s.post p).call, (s.path p.seg).grant with
  | some ref, some m =>
    if m.ref = ref && !m.answered && !overtaken && (s.callOf ref).any (fun c => c.state = .answered) then
      confirmSelect p ref.number s
    else s
  | none, _ => s
  | some _, none => s

/-- An ECHO_ON's answer, handed to the Path Switch: taken while the test of that post is STARTING and no
stopping order overtook it; the sequence starts (R23, R138). -/
def echoAnswered (p : PostId) (overtaken : Bool) (s : State) : State :=
  match (s.path p.seg).test with
  | none => s
  | some t =>
    if t.addr = p.addr && t.phase = .starting && !overtaken then
      modPath p.seg (fun q => { q with test := some { t with phase := .running }, signal := some TestSignal.start })
        (modPost p (fun r => { r with echo := true }) s)
    else s

end Sys2Proof.Machine
end

