-- ==== Sys2Proof/Machine/Calls.lean ====
section
/-! DEFINITION. The Call Manager (05): creating and freeing calls, the pending and abandoned lists, on-hook,
off-hook, line loss and line return, and the answer of a callback (R133). -/

namespace Sys2Proof.Machine

open Sys2Proof

/-! ### Creating an emergency call (R76, R77) -/

/-- The structure bonus of a post (R77). -/
def structureBonus : Option PostConfig → Nat
  | none => 0
  | some c =>
    match c.road with
    | .tunnel => 30
    | .viaduct => 10
    | .openRoad => 0
    | .slip => 0

/-- The lowest-numbered free record (R74). -/
def State.freeRecord (s : State) : Option CallNo := allCalls.find? (fun n => (s.call n).isNone)

/-- Remove a post's entry from the abandoned list (R83). -/
def removeAbandoned (p : PostId) (s : State) : State :=
  { s with abandonedList := s.abandonedList.filter (fun e => e.post ≠ p) }

/-- Add an abandoned-list entry for a post: an older one of the post goes, and the oldest of 17 goes (R83). -/
def addAbandoned (p : PostId) (origin : Seconds) (cls : CallClass) (s : State) : State :=
  let entry : AbandonedEntry :=
    { post := p, origin := origin, cls := cls, chainage := (s.postConfig p).map (·.chainage),
      abandoned := s.clock.seconds }
  let l := s.abandonedList.filter (fun e => e.post ≠ p) ++ [entry]
  { s with abandonedList := if 16 < l.length then l.tail else l }

/-- Put a new call in a record: it joins the end of the creation order, takes the counter's value, and the
post's call part takes its reference (R74, R75). -/
def assignRecord (n : CallNo) (c : Call) (s : State) : State :=
  modPost c.post (fun r => { r with call := some (c.ref n), pending := false })
    { s with calls := s.calls.set n (some c), created := s.created ++ [n], nextSequence := s.nextSequence + 1 }

/-- A new EMERGENCY call as creation and the Offer Engine give it: QUEUED, its priority with the structure
bonus, its home link, and HOME with a running overflow timer unless the home link is not UP and ACCEPTING
(R76, R77, R96 to R98). -/
def State.newEmergency (s : State) (p : PostId) (result : ClassResult) (origin : Seconds) : Call :=
  let home := s.homeFor p result.cls
  let taken := s.taking home.1
  { sequence := s.nextSequence, kind := .emergency, post := p, state := .queued, cls := result.cls,
    weight := result.weight, priority := holdAt 255 (result.weight + structureBonus (s.postConfig p)),
    phase := some (if taken then .home else .openToBoth), home := some home.1,
    overflowAt := if taken then some (s.timebase + ms home.2) else none,
    offered := PerLink.both false, owner := none, ownerChannel := none, joinedChannel := none, pathHeld := false,
    lineDown := false, transferred := false, origin := origin, location := s.locationOf p, ringDeadline := none,
    ageing := some s.timebase, declineMark := none, cadence := none }

/-- Create an EMERGENCY call in the lowest-numbered free record, up to its handing to the Offer Engine: its
offers are made by the filling that follows (R76, R82). -/
def createEmergency (p : PostId) (result : ClassResult) (origin : Seconds) (s : State) : State :=
  match s.freeRecord with
  | none => s
  | some n =>
    let s := assignRecord n (s.newEmergency p result origin) s
    let s := removeAbandoned p (requestOrder p .registered s)
    tellCall p.seg s

/-- A post joins the tail of the pending list (R80). -/
def joinPending (p : PostId) (result : ClassResult) (s : State) : State :=
  let s := { s with pendingList := s.pendingList ++ [⟨p, s.clock.seconds, result⟩] }
  modPost p (fun r => { r with pending := true }) s

/-- A call request of an off-hook post with no call (R76). -/
def callRequest (p : PostId) (result : ClassResult) (s : State) : State :=
  if (s.post p).pending then s
  else
    match s.freeRecord with
    | some _ => evaluateLoad (fillBoth (createEmergency p result s.clock.seconds s))
    | none => evaluateLoad (joinPending p result s)

/-! ### Freeing a record (R81, R82) -/

/-- Pass over a pending head that is not PRESENT (R82). -/
def passOver (e : PendingEntry) (s : State) : State :=
  let s := modPost e.post (fun r => { r with pending := false }) s
  let s := addAbandoned e.post e.joined e.result.cls s
  sendBoth (.callAbandoned none e.post e.joined e.result.cls .notPresent) s

/-- Offer a freed record to the pending heads in turn, until one that is PRESENT takes it (R82). -/
def recycleTo : List PendingEntry → State → State
  | [], s => s
  | e :: rest, s =>
    let s := { s with pendingList := rest }
    if (s.post e.post).presence = .present then createEmergency e.post e.result e.joined s
    else recycleTo rest (passOver e s)

/-- Offer a freed record to the pending list; where `fill` the new call is offered at once (R82, R146). -/
def recycle (fill : Bool) (s : State) : State :=
  if s.pendingList.isEmpty then s
  else
    let s := recycleTo s.pendingList s
    if fill then fillBoth s else s

/-- A record leaves the call table and the creation order, and its post's call part is cleared (R74, R75, R81). -/
def dropRecord (n : CallNo) (p : PostId) (s : State) : State :=
  modPost p (fun r => { r with call := none })
    { s with calls := s.calls.set n none, created := s.created.filter (fun m => m ≠ n) }

/-- Free a call record: its offers, path, request and channels go, CLEAR is requested for a post that is
PRESENT or MUTED, the record leaves the table, the ending notice is sent, and the record is offered to the
pending list (R81, steps 1 to 6). -/
def freeCall (fill : Bool) (n : CallNo) (ending : State → State) (s : State) : State :=
  match s.call n with
  | none => s
  | some c =>
    let s := giveUpPath n (removeOffers n s)
    let s := freeChannels c s
    let s := if s.reachable c.post then requestOrder c.post .clear s else s
    recycle fill (ending (dropRecord n c.post s))

/-- Free a call record as an event of its own, with the waiting count, a drain's end and the filling (R81). -/
def endCall (n : CallNo) (ending : State → State) (s : State) : State := endOfCallEvent (freeCall true n ending s)

/-- The ending of a waiting call by on-hook: an abandoned-list entry and CALL_ABANDONED (R84). -/
def endAbandoned (n : CallNo) (c : Call) (s : State) : State :=
  sendBoth (.callAbandoned (some (c.ref n)) c.post c.origin c.cls .onHook) (addAbandoned c.post c.origin c.cls s)

/-- The ending of an answered or TRANSFERRING call: CALL_CLEARED (R84, R86). -/
def endCleared (n : CallNo) (c : Call) (cause : EndCause) (releasing : Option Link) (s : State) : State :=
  sendBoth (.callCleared (c.ref n) c.post c.state c.owner cause releasing) s

/-- The ending of a RINGING callback by line loss or transfer: CALLBACK_FAILED (R135). -/
def endCallback (n : CallNo) (c : Call) (cause : EndCause) (s : State) : State :=
  sendBoth (.callbackFailed (c.ref n) c.post c.owner cause) s

/-! ### On-hook (R84, R85) -/

/-- A pending post goes on-hook, or returns on-hook: it leaves the list (R85). -/
def leavePending (p : PostId) (s : State) : State :=
  match s.pendingList.find? (fun e => e.post = p) with
  | none => s
  | some e =>
    let s := { s with pendingList := s.pendingList.filter (fun e => e.post ≠ p) }
    let s := modPost p (fun r => { r with pending := false }) s
    let s := addAbandoned p e.joined e.result.cls s
    evaluateLoad (sendBoth (.callAbandoned none p e.joined e.result.cls .onHook) s)

/-- The on-hook of a call's post, by the call's state (R84). -/
def hangUp (n : CallNo) (c : Call) (s : State) : State :=
  match c.state with
  | .queued => endCall n (endAbandoned n c) s
  | .offered => endCall n (endAbandoned n c) s
  | .answered => endCall n (endCleared n c .onHook none) s
  | .connected => endCall n (endCleared n c .onHook none) s
  | .held => endCall n (endCleared n c .onHook none) s
  | .transferring => endCall n (endCleared n c .onHook none) s
  | .lineLost => s
  | .ringing => s

/-- The call of a post with its record number (R75). -/
def State.callAt (s : State) (p : PostId) : Option (CallNo × Call) :=
  match (s.post p).call with
  | none => none
  | some ref => (s.call ref.number).map (fun c => (ref.number, c))

/-- An on-hook event (R84, R85). -/
def onHook (p : PostId) (s : State) : State :=
  match s.callAt p with
  | some (n, c) => hangUp n c s
  | none => if (s.post p).pending then leavePending p s else s

/-! ### Off-hook (R76, R133, R140) -/

/-- The off-hook of a RINGING callback's post answers it (R133). -/
def answerCallback (n : CallNo) (c : Call) (s : State) : State :=
  let ringing := (s.post c.post).ringing || s.outstanding c.post .ringOn
  let s := modCall n (fun c => { c with cadence := none }) s
  let s := if ringing then requestOrder c.post .ringOff s else s
  let s := modCall n (fun c => { c with ringDeadline := none }) s
  makeRequest n (setCallState n .answered s)

/-- An off-hook abandons a line test of its post (R140). -/
def offHookTest (p : PostId) (s : State) : State :=
  match (s.path p.seg).test with
  | some t => if t.addr = p.addr then abandonTestAndGrant p.seg .offHook s else s
  | none => s

/-- An off-hook that finds its post under no test: it answers a RINGING callback, changes no other call, and makes a
call request of a post with none (R28). -/
def offHookCall (p : PostId) (result : ClassResult) (s : State) : State :=
  match s.callAt p with
  | some (n, c) => if c.state = .ringing then answerCallback n c s else s
  | none => callRequest p result s

/-- An off-hook event: a line test of the post is abandoned before the Call Manager takes it (R28, R140). -/
def offHook (p : PostId) (result : ClassResult) (s : State) : State := offHookCall p result (offHookTest p s)

/-! ### Line loss and return (R88, R89) -/

/-- Line loss for a post's call, by its state (R88). -/
def loseLineOf (n : CallNo) (c : Call) (s : State) : State :=
  let down := modCall n (fun c => { c with lineDown := true })
  let lost (s : State) : State :=
    let s := setCallState n .lineLost (giveUpPath n (down s))
    match c.owner with
    | some l => send l (.lineLost (c.ref n) c.post) s
    | none => s
  match c.state with
  | .queued => down s
  | .offered => down s
  | .transferring => releasePath n (down s)
  | .answered => lost s
  | .connected => lost s
  | .held => lost s
  | .lineLost => s
  | .ringing => endCall n (endCallback n c .lineLoss) s

/-- Line loss of one post reaches the Call Manager (R88). -/
def callLineLoss (p : PostId) (s : State) : State :=
  match s.callAt p with
  | some (n, c) => loseLineOf n c s
  | none => s

/-- Line loss of one post reaches the Path Switch: its requests are withdrawn, its line test abandoned (R88,
R114, R140). -/
def pathLineLoss (p : PostId) (s : State) : State :=
  let s := { s with requests := s.requests.filter (fun r => r.post ≠ p) }
  match (s.path p.seg).test with
  | some t => if t.addr = p.addr then abandonTestAndGrant p.seg .lineLoss s else s
  | none => s

/-- Line return of a post's call, by its state and the returned hook (R89). -/
def returnLineOf (n : CallNo) (c : Call) (offHook : Bool) (s : State) : State :=
  let up := modCall n (fun c => { c with lineDown := false })
  match c.state with
  | .queued => if offHook then up s else hangUp n c s
  | .offered => if offHook then up s else hangUp n c s
  | .transferring => if offHook then up s else hangUp n c s
  | .lineLost =>
    if offHook then
      let s := makeRequest n (setCallState n .answered (up s))
      match c.owner with
      | some l => send l (.lineRestored (c.ref n) c.post) s
      | none => s
    else endCall n (endCleared n c .onHook none) s
  | .answered => s
  | .connected => s
  | .held => s
  | .ringing => s

/-- A line-return event of a post with a call or a pending entry (R27, R89). -/
def lineReturn (p : PostId) (offHook : Bool) (s : State) : State :=
  match s.callAt p with
  | some (n, c) => returnLineOf n c offHook s
  | none => if (s.post p).pending && !offHook then leavePending p s else s

end Sys2Proof.Machine
end

