-- ==== Sys2Proof/Machine/Handover.lean ====
section
/-! DEFINITION. Handover and link loss (09): transfer of an owned call (R148, R149), HANDOVER and RESUME
(R143 to R147), a link going DOWN (R151, R157) and coming UP (R152, R157). -/

namespace Sys2Proof.Machine

open Sys2Proof

/-! ### Transfer of an owned call -/

/-- A link's transfer count rises by one, held at 255 (R94). -/
def countTransfer (l : Link) (s : State) : State :=
  modLink l (fun r => { r with transfers := holdAt 255 (r.transfers + 1) }) s

/-- The joined peer's channel of a call whose owner `x` gives it up: present, its link UP and not CLOSED (R148). -/
def State.joinedPeer (s : State) (c : Call) (x : Link) : Option ChanNo :=
  if (s.link x.other).up && (s.link x.other).mode ≠ .closed then c.joinedChannel else none

/-- A call passes to its joined peer: the joined channel becomes the owner channel, X's channel is FREE (R148). -/
def passToPeer (n : CallNo) (c : Call) (x : Link) (k : ChanNo) (cause : TransferCause) (s : State) : State :=
  let s := forEach c.ownerChannel.toList (freeChannel x) s
  let s := modCall n (fun c => { c with owner := some x.other, ownerChannel := some k, joinedChannel := none }) s
  let s := countTransfer x (placeChannels n s)
  sendBoth (.callTransferred (c.ref n) c.post c.state x (some x.other) cause) s

/-- A call record as it becomes TRANSFERRING: no owner, the boost of 20, an EMERGENCY HOME phase OPEN, a fresh
ageing clock, no decline mark, an empty offered set and a rebuilt snapshot (R149). -/
def Call.transferring (now : Nat) (location : LocationRecord) (c : Call) : Call :=
  let opens := c.kind = .emergency && c.phase = some .home
  { c with
    owner := none, ownerChannel := none, joinedChannel := none, state := .transferring, transferred := true
    priority := holdAt 255 (c.priority + 20)
    phase := if opens then some .openToBoth else c.phase
    overflowAt := if opens then none else c.overflowAt
    ageing := some now, declineMark := none, offered := PerLink.both false, location := location }

/-- The path of a call that becomes TRANSFERRING, by its state: kept with the hold tone, or given up (R149). -/
def transferPath (n : CallNo) (c : Call) (s : State) : State :=
  match c.state with
  | .connected => modPath c.post.seg (fun q => { q with holdTone := some 0 }) s
  | .answered => giveUpPath n s
  | .held => s
  | .lineLost => s
  | .queued => s
  | .offered => s
  | .transferring => s
  | .ringing => s

/-- A call becomes TRANSFERRING (R149). -/
def makeTransferring (n : CallNo) (c : Call) (x : Link) (cause : TransferCause) (s : State) : State :=
  let s := transferPath n c (freeChannels c s)
  let s := modCall n (Call.transferring s.timebase (s.locationOf c.post)) s
  sendBoth (.callTransferred (c.ref n) c.post .transferring x none cause) (countTransfer x s)

/-- Transfer a call that link `x` owns: a RINGING callback is freed, a joined one passes to its peer, any other
becomes TRANSFERRING (R148, R149). The waiting count and the filling are left to the end (R146). -/
def transferCall (x : Link) (cause : TransferCause) (n : CallNo) (s : State) : State :=
  match s.call n with
  | none => s
  | some c =>
    if c.owner ≠ some x then s
    else if c.state = .ringing then freeCall false n (endCallback n c .transfer) s
    else
      match s.joinedPeer c x with
      | some k => passToPeer n c x k cause s
      | none => makeTransferring n c x cause s

/-- Transfer every call a link owns, in creation order (R146, R151). -/
def transferAll (x : Link) (cause : TransferCause) (s : State) : State :=
  forEach ((s.ownedBy x).map (·.1)) (transferCall x cause) s

/-! ### HANDOVER and RESUME -/

/-- HANDOVER FINISH of an ACCEPTING link starts a drain (R144); a DRAINING link is left as it is (R143). -/
def finishEffect (x : Link) (s : State) : State :=
  if (s.link x).mode = .draining then s
  else
    let s := modLink x (fun r => { r with mode := .draining, transfers := 0 }) s
    let s := withdrawWhere x (some .handover) (fun c => c.state = .queued || c.state = .offered) s
    let s := sendLinkState (openHomedOn x s)
    fillBoth (endDrain x s)

/-- HANDOVER IMMEDIATE closes a link at once (R146). -/
def immediateEffect (x : Link) (s : State) : State :=
  let s := modLink x (fun r =>
    { r with mode := .closed, transfers := if r.mode = .accepting then 0 else r.transfers }) s
  let s := openHomedOn x (withdrawWhere x (some .handover) (fun _ => true) s)
  let s := sendLinkState (transferAll x .handover s)
  let s := sendBoth (.handoverDone x .immediate (s.link x).transfers) s
  fillBoth (evaluateLoad s)

/-- RESUME: a link that is not ACCEPTING becomes so, and is filled (R147). -/
def resumeEffect (x : Link) (s : State) : State :=
  if (s.link x).mode = .accepting then s
  else fillLink x (sendLinkState (modLink x (fun r => { r with mode := .accepting }) s))

/-! ### A link going DOWN and coming UP -/

/-- Free every joined channel of a link on the other link's calls, as by LEAVE (R151). -/
def leaveAll (x : Link) (s : State) : State :=
  forEach ((s.ownedBy x.other).map (·.1)) (fun n s =>
    match s.call n with
    | none => s
    | some c =>
      modCall n (fun c => { c with joinedChannel := none }) (forEach c.joinedChannel.toList (freeChannel x) s)) s

/-- The Offer Engine takes the loss of a link, step by step (R151). -/
def linkLost (x : Link) (s : State) : State :=
  let s := openHomedOn x (withdrawWhere x none (fun _ => true) s)
  let s := transferAll x .linkLoss (leaveAll x s)
  let s := sendLinkState (endDrain x s)
  fillLink x.other (evaluateLoad s)

/-- A link goes DOWN: its timer stops, the block in progress is abandoned, its queue is emptied, and the loss is
handed on (R157). -/
def linkGoesDown (x : Link) (s : State) : State :=
  linkLost x (modLink x (fun r =>
    { r with up := false, lossTimer := none, assembly := [], queue := [], sentBytes := 0 }) s)

/-- LINK_LOSS_EXPIRY: a running timer expires and its link goes DOWN (R157). -/
def linkLossExpiry (x : Link) (s : State) : State :=
  outsideReset (fun s =>
    match (s.link x).lossTimer with
    | none => s
    | some t => if (s.link x).up then linkGoesDown x (reach t.due s) else s) s

/-- Restart a link's loss timer from the present, with the link-loss time as it stands (R157). -/
def restartLoss (x : Link) (s : State) : State :=
  modLink x (fun r => { r with lossTimer := some ⟨s.timebase, s.timebase + ms (s.tables.links.get x).lossTime⟩ }) s

/-- A DOWN link comes UP: STARTED where it is due, LINK_STATE to both links, and the link is filled (R152,
R157, R161). -/
def linkComesUp (x : Link) (s : State) : State :=
  fillLink x (sendLinkState (sendStartedIfDue x (modLink x (fun r => { r with up := true }) s)))

/-- A valid block is a sign of life on its link (R157). -/
def signOfLife (x : Link) (s : State) : State :=
  let s := restartLoss x s
  if (s.link x).up then s else linkComesUp x s

/-! ### A command from a link -/

/-- A command of link `x`: the sign of life, then its checks; refused it changes nothing more, else DONE with its
data is queued and its effect follows (R157 to R159). -/
def runCommand (x : Link) (tag : Tag) (type : CommandType) (check : State → Option RefusalCode)
    (reply : State → Reply) (effect : State → State) (s : State) : State :=
  outsideReset (fun s =>
    let s := signOfLife x s
    match check s with
    | some code => respond x tag type (.refused code) s
    | none => effect (respond x tag type (.done (reply s)) s)) s

/-- A command refused whatever the state (R158). -/
def refuseCommand (x : Link) (tag : Tag) (type : CommandType) (code : RefusalCode) (s : State) : State :=
  runCommand x tag type (fun _ => some code) (fun _ => .empty) id s

/-! ### The meanings of the rows -/

/-- The row LINK_LOSS_EXPIRY (R157). -/
def execLinkLossExpiry (l : Link) (s : State) : Host.Outcome State Fault Refusal :=
  .next (linkLossExpiry l s)

end Sys2Proof.Machine
end

