-- ==== Sys2Proof/Machine/CallCommands.lean ====
section
/-! DEFINITION. The commands on calls (05, 06, 07, 08, 09): the lists, ANSWER, DECLINE, HOLD, RETRIEVE, RELEASE,
JOIN, LEAVE, CALL_POST, TEST_POST, HANDOVER and RESUME, each with its checks in its rule's order. -/

namespace Sys2Proof.Machine

open Sys2Proof

/-! ### Checks and effects on a named call -/

/-- The common checks of a command on a call, then its own: LOADING, numbers out of range, no such call (R103,
R106, R86, R122). -/
def callChecks (c : CallArg) (channel : Option Nat) (own : CallNo → Call → List (Bool × RefusalCode)) (s : State) :
    Option RefusalCode :=
  if s.loading then some .busy
  else if (callNumberOf c.number).isNone || channel.any (fun k => (channelOf k).isNone) then some .malformed
  else
    match s.lookup c with
    | none => some .noSuchCall
    | some (n, r) => firstRefusal (own n r)

/-- The effect of a command on the call it names. -/
def onCall (c : CallArg) (effect : CallNo → Call → State → State) (s : State) : State :=
  match s.lookup c with
  | none => s
  | some (n, r) => effect n r s

/-- The effect of a command on the call and the channel it names. -/
def onCallChannel (c : CallArg) (channel : Nat) (effect : CallNo → Call → ChanNo → State → State) (s : State) : State :=
  match channelOf channel with
  | none => s
  | some k => onCall c (fun n r => effect n r k) s

/-- Whether a channel number names a channel of the link that is not FREE. -/
def State.channelTaken (s : State) (x : Link) (channel : Nat) : Bool :=
  (channelOf channel).any (fun k => !s.channelFree x k)

/-! ### Lists (R92, R93) -/

/-- The summaries of LIST_CALLS: the waiting calls in the waiting order, then the owned in creation order (R92). -/
def State.summaries (s : State) : List CallSummary :=
  (s.waitingOrder ++ s.callsInOrder.filter (fun x => x.2.state.owned)).map (fun x => ⟨x.1, x.2⟩)

/-- LIST_CALLS (R92). -/
def listCalls (x : Link) (tag : Tag) (s : State) : State :=
  runCommand x tag .listCalls (fun s => firstRefusal [(s.loading, .busy)]) (fun s => .calls s.summaries) id s

/-- The place of a waiting call in the waiting order, counted from 1 (R92). -/
def State.placeOf (s : State) (n : CallNo) : Option Nat :=
  (s.waitingOrder.findIdx? (fun x => x.1 = n)).map (· + 1)

/-- The answer of READ_CALL (R92). -/
def State.callData (s : State) (n : CallNo) (c : Call) : CallData :=
  { number := n, call := c, overflowLeft := c.overflowAt.map s.secondsLeft,
    ringLeft := c.ringDeadline.map s.secondsLeft, place := s.placeOf n }

/-- READ_CALL's checks (R92). -/
def readCallChecks (c : CallArg) (s : State) : Option RefusalCode :=
  firstRefusal
    [((callNumberOf c.number).isNone, .malformed),
     (s.loading, .busy),
     ((s.lookup c).isNone, .noSuchCall)]

/-- READ_CALL (R92). -/
def readCall (x : Link) (tag : Tag) (c : CallArg) (s : State) : State :=
  runCommand x tag .readCall (readCallChecks c)
    (fun s => ((s.lookup c).map (fun y => Reply.call (s.callData y.1 y.2))).getD .empty) id s

/-- LIST_ABANDONED (R93). -/
def listAbandoned (x : Link) (tag : Tag) (s : State) : State :=
  runCommand x tag .listAbandoned (fun s => firstRefusal [(s.loading, .busy)]) (fun s => .abandoned s.abandonedList) id s

/-- LIST_PENDING (R93). -/
def listPending (x : Link) (tag : Tag) (s : State) : State :=
  runCommand x tag .listPending (fun s => firstRefusal [(s.loading, .busy)]) (fun s => .pendingPosts s.pendingList) id s

/-! ### ANSWER and DECLINE (R103 to R106) -/

/-- ANSWER's own checks (R103). -/
def answerChecks (x : Link) (c : CallArg) (channel : Nat) (s : State) : Option RefusalCode :=
  callChecks c (some channel) (fun _ r =>
    [(r.state.owned, .taken),
     (!r.offered.get x, .notOffered),
     (s.channelTaken x channel, .channelBusy)]) s

/-- A call record as an ANSWER takes it: owner and owner channel, no decline mark, its overflow timer and its
ageing clock stopped (R104). -/
def Call.answeredBy (x : Link) (k : ChanNo) (c : Call) : Call :=
  { c with owner := some x, ownerChannel := some k, declineMark := none, overflowAt := none, ageing := none }

/-- The state an answered call takes (R104). -/
def Call.answeredState (c : Call) : CallState :=
  if c.lineDown then .lineLost else if c.state = .transferring && c.pathHeld then .connected else .answered

/-- The effect of an ANSWER: the offers end, the record and its channel follow, an ANSWERED call makes its path
request, a CONNECTED one ends the hold tone; then the waiting count and the filling (R104). -/
def answerEffect (x : Link) (n : CallNo) (c : Call) (k : ChanNo) (s : State) : State :=
  let s := withdraw x.other (some (.answered x)) n (setOffer n x false s)
  let s := setCallState n c.answeredState (modCall n (Call.answeredBy x k) s)
  let s := match c.answeredState with
    | .answered => makeRequest n s
    | .connected => modPath c.post.seg (fun q => { q with holdTone := none }) s
    | _ => s
  fillBoth (evaluateLoad s)

/-- ANSWER (R103, R104). -/
def answer (x : Link) (tag : Tag) (c : CallArg) (channel : Nat) (s : State) : State :=
  runCommand x tag .answer (answerChecks x c channel) (fun _ => .empty) (onCallChannel c channel (answerEffect x)) s

/-- DECLINE's own checks (R106). -/
def declineChecks (x : Link) (c : CallArg) (s : State) : Option RefusalCode :=
  callChecks c none (fun _ r => [(r.state.owned, .taken), (!r.offered.get x, .notOffered)]) s

/-- The effect of a DECLINE (R106). -/
def declineEffect (x : Link) (n : CallNo) (c : Call) (s : State) : State :=
  let s := setOffer n x false s
  let s := if c.home = some x && c.phase = some .home then openCall n s else s
  fillBoth (requeue n (modCall n (fun c => { c with declineMark := some x }) s))

/-- DECLINE (R106). -/
def decline (x : Link) (tag : Tag) (c : CallArg) (s : State) : State :=
  runCommand x tag .decline (declineChecks x c) (fun _ => .empty) (onCall c (declineEffect x)) s

/-! ### Commands on owned calls (R86, R122 to R126) -/

/-- HOLD's own checks (R123). -/
def holdChecks (x : Link) (c : CallArg) (s : State) : Option RefusalCode :=
  callChecks c none (fun _ r =>
    [(r.owner ≠ some x, .notOwner), (r.state = .held || r.state = .lineLost || r.state = .ringing, .badState)]) s

/-- The effect of a HOLD: request withdrawn, path released, the call HELD on its channels (R123). -/
def holdEffect (n : CallNo) (_ : Call) (s : State) : State := setCallState n .held (giveUpPath n s)

/-- HOLD (R123). -/
def hold (x : Link) (tag : Tag) (c : CallArg) (s : State) : State :=
  runCommand x tag .hold (holdChecks x c) (fun _ => .empty) (onCall c holdEffect) s

/-- RETRIEVE's own checks (R124). -/
def retrieveChecks (x : Link) (c : CallArg) (s : State) : Option RefusalCode :=
  callChecks c none (fun _ r => [(r.owner ≠ some x, .notOwner), (r.state ≠ .held, .badState)]) s

/-- The effect of a RETRIEVE: ANSWERED, with a path request (R124). -/
def retrieveEffect (n : CallNo) (_ : Call) (s : State) : State := makeRequest n (setCallState n .answered s)

/-- RETRIEVE (R124). -/
def retrieve (x : Link) (tag : Tag) (c : CallArg) (s : State) : State :=
  runCommand x tag .retrieve (retrieveChecks x c) (fun _ => .empty) (onCall c retrieveEffect) s

/-- RELEASE's own checks (R86). -/
def releaseChecks (x : Link) (c : CallArg) (s : State) : Option RefusalCode :=
  callChecks c none (fun _ r => [(r.owner ≠ some x, .notOwner)]) s

/-- Bar a post until on-hook where its hook field is OFF (R87). -/
def barIfOff (p : PostId) (s : State) : State :=
  if (s.post p).hook = .off then modPost p (fun r => { r with barred := true }) s else s

/-- The effect of a RELEASE: the bar, then the freeing with CALL_CLEARED (R86, R87). -/
def releaseEffect (x : Link) (n : CallNo) (c : Call) (s : State) : State :=
  endCall n (endCleared n c .release (some x)) (barIfOff c.post s)

/-- RELEASE (R86). -/
def release (x : Link) (tag : Tag) (c : CallArg) (s : State) : State :=
  runCommand x tag .release (releaseChecks x c) (fun _ => .empty) (onCall c (releaseEffect x)) s

/-- JOIN's own checks (R125). -/
def joinChecks (x : Link) (c : CallArg) (channel : Nat) (s : State) : Option RefusalCode :=
  callChecks c (some channel) (fun _ r =>
    [(r.owner.isNone || r.owner = some x || r.state = .lineLost || r.state = .ringing || r.joinedChannel.isSome ||
        (s.link x).mode = .closed, .badState),
     (s.channelTaken x channel, .channelBusy)]) s

/-- The effect of a JOIN (R125). -/
def joinEffect (n : CallNo) (_ : Call) (k : ChanNo) (s : State) : State :=
  placeChannels n (modCall n (fun c => { c with joinedChannel := some k }) s)

/-- JOIN (R125). -/
def join (x : Link) (tag : Tag) (c : CallArg) (channel : Nat) (s : State) : State :=
  runCommand x tag .join (joinChecks x c channel) (fun _ => .empty) (onCallChannel c channel joinEffect) s

/-- LEAVE's own checks (R126). -/
def leaveChecks (x : Link) (c : CallArg) (s : State) : Option RefusalCode :=
  callChecks c none (fun _ r => [(r.joinedChannel.isNone || r.owner ≠ some x.other, .badState)]) s

/-- The effect of a LEAVE (R126). -/
def leaveEffect (x : Link) (n : CallNo) (c : Call) (s : State) : State :=
  modCall n (fun c => { c with joinedChannel := none }) (forEach c.joinedChannel.toList (freeChannel x) s)

/-- LEAVE (R126). -/
def leave (x : Link) (tag : Tag) (c : CallArg) (s : State) : State :=
  runCommand x tag .leave (leaveChecks x c) (fun _ => .empty) (onCall c (leaveEffect x)) s

/-! ### CALL_POST (R129 to R131) -/

/-- A post its segment's line test is testing, waiting or running (R129). -/
def State.underTest (s : State) (p : PostId) : Bool := (s.path p.seg).test.any (fun t => t.addr = p.addr)

/-- CALL_POST's checks (R129). -/
def callPostChecks (x : Link) (p : PostArg) (channel : Nat) (s : State) : Option RefusalCode :=
  if s.loading then some .busy
  else
    match postOf p, channelOf channel with
    | some q, some k =>
      firstRefusal
        [((s.link x).mode ≠ .accepting, .badState),
         (!(s.line q.seg).feed.inService, .segmentDown),
         ((s.post q).presence ≠ .present, .postAbsent),
         ((s.post q).call.isSome || (s.post q).pending || (s.post q).hook = .off || s.underTest q, .postBusy),
         (!s.channelFree x k, .channelBusy),
         (s.freeRecord.isNone, .busy)]
    | none, _ => some .malformed
    | some _, none => some .malformed

/-- A callback as CALL_POST creates it (R130). -/
def State.newCallback (s : State) (x : Link) (p : PostId) (k : ChanNo) (priority : Nat) : Call :=
  { sequence := s.nextSequence, kind := .callback, post := p, state := .ringing, cls := .default, weight := 0,
    priority := priority, phase := none, home := none, overflowAt := none, offered := PerLink.both false,
    owner := some x, ownerChannel := some k, joinedChannel := none, pathHeld := false, lineDown := false,
    transferred := false, origin := s.clock.seconds, location := s.locationOf p,
    ringDeadline := some (s.timebase + ms (s.segmentConfig p.seg).ringTimeout), ageing := none, declineMark := none,
    cadence := none }

/-- A ring period of a callback begins at time `t`: the settings are read, ring-back sounds and RING_ON is
requested unless the on-time is 0 (R131, R132). -/
def startPeriod (n : CallNo) (p : PostId) (began t : Nat) (s : State) : State :=
  let cfg := s.segmentConfig p.seg
  let rings : Bool := 0 < cfg.ringOnTime
  let cadence : Cadence :=
    { began := began, periodStart := t, period := cfg.ringPeriod, onTime := cfg.ringOnTime, audible := rings }
  let s := modCall n (fun c => { c with cadence := some cadence }) s
  if rings then requestOrder p .ringOn s else s

/-- The priority a CALL_POST gives: as sent, 128 where omitted (R129). -/
def callbackPriority (priority : Option Nat) : Nat := holdAt 255 (priority.getD 128)

/-- The effect of a CALL_POST, step by step (R130). -/
def callPostEffect (x : Link) (p : PostId) (k : ChanNo) (priority : Nat) (s : State) : State :=
  match s.freeRecord with
  | none => s
  | some n =>
    let s := placeChannels n (assignRecord n (s.newCallback x p k priority) s)
    let s := tellCall p.seg (removeAbandoned p s)
    evaluateLoad (startPeriod n p s.timebase s.timebase s)

/-- The data of a CALL_POST's response: the new reference and the ring timeout in whole seconds (R130). -/
def callPostReply (p : PostArg) (s : State) : Reply :=
  match postOf p, s.freeRecord with
  | some q, some n => .callPlaced ⟨n, s.nextSequence⟩ (s.segmentConfig q.seg).ringTimeout
  | none, _ => .empty
  | some _, none => .empty

/-- CALL_POST (R129, R130). -/
def callPost (x : Link) (tag : Tag) (p : PostArg) (channel : Nat) (priority : Option Nat) (s : State) : State :=
  runCommand x tag .callPost (callPostChecks x p channel) (callPostReply p)
    (fun s =>
      match postOf p, channelOf channel with
      | some q, some k => callPostEffect x q k (callbackPriority priority) s
      | none, _ => s
      | some _, none => s) s

/-! ### TEST_POST (R137) -/

/-- TEST_POST's checks (R137). -/
def testPostChecks (p : PostArg) (s : State) : Option RefusalCode :=
  if s.loading then some .busy
  else
    match postOf p with
    | none => some .malformed
    | some q =>
      firstRefusal
        [(!(s.line q.seg).feed.inService, .segmentDown),
         ((s.post q).presence ≠ .present, .postAbsent),
         ((s.post q).call.isSome || (s.post q).pending, .postBusy),
         ((s.path q.seg).test.isSome, .busy)]

/-- The effect of a TEST_POST: the record WAITING, its request, the grant evaluated (R137). -/
def testPostEffect (x : Link) (p : PostId) (s : State) : State :=
  let s := modPath p.seg (fun q => { q with test := some ⟨p.addr, x, .waiting⟩ }) s
  evaluateGrant p.seg { s with requests := s.requests ++ [⟨.test, p⟩] }

/-- TEST_POST (R137). -/
def testPost (x : Link) (tag : Tag) (p : PostArg) (s : State) : State :=
  runCommand x tag .testPost (testPostChecks p) (fun _ => .empty)
    (fun s =>
      match postOf p with
      | some q => testPostEffect x q s
      | none => s) s

/-! ### HANDOVER and RESUME (R143, R147) -/

/-- HANDOVER's checks, its mode being one of the two (R143). -/
def handoverChecks (x : Link) (s : State) : Option RefusalCode :=
  firstRefusal
    [(s.loading, .busy),
     ((s.link x).mode = .closed, .badState),
     (!s.taking x.other, .noPeer)]

/-- HANDOVER, mode FINISH (R143, R144). -/
def handoverFinish (x : Link) (tag : Tag) (s : State) : State :=
  runCommand x tag .handover (handoverChecks x) (fun _ => .empty) (finishEffect x) s

/-- HANDOVER, mode IMMEDIATE (R143, R146). -/
def handoverImmediate (x : Link) (tag : Tag) (s : State) : State :=
  runCommand x tag .handover (handoverChecks x) (fun _ => .empty) (immediateEffect x) s

/-- RESUME (R147). -/
def resume (x : Link) (tag : Tag) (s : State) : State :=
  runCommand x tag .resume (fun s => firstRefusal [(s.loading, .busy)]) (fun _ => .empty) (resumeEffect x) s

/-! ### The meanings of the rows -/

/-- The row LIST_CALLS (R92). -/
def execListCalls (l : Link) (tag : Tag) (s : State) : Host.Outcome State Fault Refusal :=
  .next (listCalls l tag s)

/-- The row READ_CALL (R92). -/
def execReadCall (l : Link) (tag : Tag) (call : CallArg) (s : State) : Host.Outcome State Fault Refusal :=
  .next (readCall l tag call s)

/-- The row LIST_ABANDONED (R93). -/
def execListAbandoned (l : Link) (tag : Tag) (s : State) : Host.Outcome State Fault Refusal :=
  .next (listAbandoned l tag s)

/-- The row LIST_PENDING (R93). -/
def execListPending (l : Link) (tag : Tag) (s : State) : Host.Outcome State Fault Refusal :=
  .next (listPending l tag s)

/-- The row ANSWER (R104). -/
def execAnswer (l : Link) (tag : Tag) (call : CallArg) (channel : Nat) (s : State) : Host.Outcome State Fault Refusal :=
  .next (answer l tag call channel s)

/-- The row DECLINE (R106). -/
def execDecline (l : Link) (tag : Tag) (call : CallArg) (s : State) : Host.Outcome State Fault Refusal :=
  .next (decline l tag call s)

/-- The row HOLD (R123). -/
def execHold (l : Link) (tag : Tag) (call : CallArg) (s : State) : Host.Outcome State Fault Refusal :=
  .next (hold l tag call s)

/-- The row RETRIEVE (R124). -/
def execRetrieve (l : Link) (tag : Tag) (call : CallArg) (s : State) : Host.Outcome State Fault Refusal :=
  .next (retrieve l tag call s)

/-- The row RELEASE (R86). -/
def execRelease (l : Link) (tag : Tag) (call : CallArg) (s : State) : Host.Outcome State Fault Refusal :=
  .next (release l tag call s)

/-- The row JOIN (R125). -/
def execJoin (l : Link) (tag : Tag) (call : CallArg) (channel : Nat) (s : State) : Host.Outcome State Fault Refusal :=
  .next (join l tag call channel s)

/-- The row LEAVE (R126). -/
def execLeave (l : Link) (tag : Tag) (call : CallArg) (s : State) : Host.Outcome State Fault Refusal :=
  .next (leave l tag call s)

/-- The row CALL_POST (R130). -/
def execCallPost (l : Link) (tag : Tag) (post : PostArg) (channel : Nat) (priority : Option Nat) (s : State) : Host.Outcome State Fault Refusal :=
  .next (callPost l tag post channel priority s)

/-- The row TEST_POST (R137). -/
def execTestPost (l : Link) (tag : Tag) (post : PostArg) (s : State) : Host.Outcome State Fault Refusal :=
  .next (testPost l tag post s)

/-- The row HANDOVER_FINISH (R144). -/
def execHandoverFinish (l : Link) (tag : Tag) (s : State) : Host.Outcome State Fault Refusal :=
  .next (handoverFinish l tag s)

/-- The row HANDOVER_IMMEDIATE (R146). -/
def execHandoverImmediate (l : Link) (tag : Tag) (s : State) : Host.Outcome State Fault Refusal :=
  .next (handoverImmediate l tag s)

/-- The row RESUME (R147). -/
def execResume (l : Link) (tag : Tag) (s : State) : Host.Outcome State Fault Refusal :=
  .next (resume l tag s)

end Sys2Proof.Machine
end

