-- ==== Sys2Proof/Machine/Formats.lean ====
section
/-! DEFINITION. The bytes of message blocks (12.1, 12.4, R176): the codes of enumerations, the encodings of body
fields, and every response and notice as the block that goes out. Choices the rules leave open are log 8. -/

namespace Sys2Proof.Machine

open Sys2Proof

/-! ### Fields (R176) -/

/-- A number in one, two or three bytes, most significant first. -/
def u8 (n : Nat) : List Byte := [byteOf n]

def u16 (n : Nat) : List Byte := bytes16 (BitVec.ofNat 16 n)

def u24 (n : Nat) : List Byte := [byteOf (n / 65536), byteOf (n / 256), byteOf n]

/-- A yes or no field. -/
def flag (b : Bool) : List Byte := u8 (if b then 1 else 0)

/-- An optional field behind its presence byte. -/
def optional {α : Type} (f : α → List Byte) : Option α → List Byte
  | none => u8 0
  | some x => u8 1 ++ f x

/-- A list behind its count. -/
def counted {α : Type} (f : α → List Byte) (l : List α) : List Byte := u8 l.length ++ l.flatMap f

/-- A post: segment, then address. -/
def postField (p : PostId) : List Byte := u8 (p.seg.val + 1) ++ u8 (p.addr.val + 1)

/-- A call reference: call number, then sequence. -/
def refField (r : CallRef) : List Byte := u8 (r.number.val + 1) ++ bytes16 r.sequence

/-- A channel, 1 to 4. -/
def channelField (k : ChanNo) : List Byte := u8 (k.val + 1)

/-! ### Codes (12.4) -/

def linkCode : Link → Nat
  | .a => 1
  | .b => 2

def carriagewayCode : Carriageway → Nat
  | .one => 1
  | .two => 2

def windowCarriagewayCode : CarriagewayCode → Nat
  | .one => 1
  | .two => 2
  | .both => 3

def sideCode : Side → Nat
  | .left => 1
  | .right => 2
  | .median => 3

def roadCode : RoadStructure → Nat
  | .openRoad => 1
  | .tunnel => 2
  | .viaduct => 3
  | .slip => 4

def feedCode : FeedState → Nat
  | .off => 0
  | .powering => 1
  | .discovery => 2
  | .active => 3
  | .isolating => 4
  | .feedLost => 5
  | .tripped => 6
  | .locked => 7

def tempoCode : Tempo → Nat
  | .normal => 0
  | .economy => 1

def formatCode : ReportFormat → Nat
  | .basic => 0
  | .extended => 1

def presenceCode : Presence → Nat
  | .unknown => 0
  | .present => 1
  | .lost => 2
  | .muted => 3

def hookCode : Hook → Nat
  | .on => 0
  | .off => 1
  | .unknown => 2

def verificationCode : Verification → Nat
  | .unranged => 0
  | .verified => 1
  | .distanceMismatch => 2
  | .identityMismatch => 3

def entryKindCode : EntryKind → Nat
  | .call => 0
  | .alarm => 1

def classCode : CallClass → Nat
  | .entry n => n.val
  | .default => 8

def callKindCode : CallKind → Nat
  | .emergency => 0
  | .callback => 1

def callStateCode : CallState → Nat
  | .queued => 1
  | .offered => 2
  | .answered => 3
  | .connected => 4
  | .held => 5
  | .lineLost => 6
  | .transferring => 7
  | .ringing => 8

def phaseCode : OfferPhase → Nat
  | .home => 0
  | .openToBoth => 1

def modeCode : OfferingMode → Nat
  | .accepting => 0
  | .draining => 1
  | .closed => 2

def handoverCode : HandoverMode → Nat
  | .finish => 0
  | .immediate => 1

def resetCauseCode : ResetCause → Nat
  | .powerOn => 1
  | .supplyDip => 2
  | .resetPin => 3

def endCauseCode : EndCause → Nat
  | .onHook => 1
  | .release => 2
  | .notPresent => 3
  | .lineLoss => 4
  | .transfer => 5

def transferCauseCode : TransferCause → Nat
  | .handover => 1
  | .linkLoss => 2

def abandonCauseCode : AbandonCause → Nat
  | .preempted => 1
  | .offHook => 2
  | .lineLoss => 3

/-- SEGMENT_STATE causes follow the table of R16. -/
def segmentCauseCode : SegmentCause → Nat
  | .startUp => 1
  | .command _ => 2
  | .underVoltage => 3
  | .voltageFall => 4
  | .voltageReturn => 5
  | .settled => 6
  | .sweepDone => 7
  | .babble => 8
  | .overCurrent => 9
  | .lineFault => 10
  | .retry => 11

/-- The type of a command's block; 00 hex stands for a block that names no command (12.1). -/
def commandCode : CommandType → Nat
  | .unknown => 0x00
  | .readStatus => 0x01
  | .setTime => 0x02
  | .listCalls => 0x03
  | .readCall => 0x04
  | .listAbandoned => 0x05
  | .listPending => 0x06
  | .answer => 0x07
  | .decline => 0x08
  | .hold => 0x09
  | .retrieve => 0x0A
  | .release => 0x0B
  | .join => 0x0C
  | .leave => 0x0D
  | .callPost => 0x0E
  | .testPost => 0x0F
  | .handover => 0x10
  | .resume => 0x11
  | .readPost => 0x12
  | .writePost => 0x13
  | .clearPost => 0x14
  | .readSegment => 0x15
  | .writeSegment => 0x16
  | .feed => 0x17
  | .unmutePost => 0x18
  | .readWindow => 0x19
  | .writeWindow => 0x1A
  | .readClass => 0x1B
  | .writeClass => 0x1C
  | .writeDefaults => 0x1D
  | .writeLink => 0x1E
  | .lockStructure => 0x1F
  | .saveImage => 0x20

/-- The result byte of a refusal (12.1). -/
def refusalByte : RefusalCode → Nat
  | .malformed => 0x01
  | .busy => 0x02
  | .stale => 0x03
  | .locked => 0x04
  | .noSuchCall => 0x05
  | .notOffered => 0x06
  | .taken => 0x07
  | .notOwner => 0x08
  | .channelBusy => 0x09
  | .postBusy => 0x0A
  | .postAbsent => 0x0B
  | .segmentDown => 0x0C
  | .noPeer => 0x0D
  | .badState => 0x0E

/-! ### Compound fields -/

def linkField (l : Link) : List Byte := u8 (linkCode l)

/-- An owner in a call record or summary: a link code, or 0 for none (12.4). -/
def ownerField : Option Link → List Byte
  | none => u8 0
  | some l => linkField l

/-- A set of links: bit 0 for A, bit 1 for B (12.4). -/
def linkSetField (p : PerLink Bool) : List Byte := u8 ((if p.a then 1 else 0) + (if p.b then 2 else 0))

/-- A path holder: its code byte followed by its data (12.4). -/
def holderField : Holder → List Byte
  | .none => u8 0
  | .call r => u8 1 ++ refField r
  | .test => u8 2

/-- A last sample: its code byte followed by its data (12.4). -/
def sampleField : Option LastSample → List Byte
  | none => u8 0
  | some .early => u8 1
  | some (.distance m false) => u8 2 ++ u16 m
  | some (.distance m true) => u8 3 ++ u16 m

/-- A test result: PASS 0 and FAIL 1 with their error count behind a presence byte, ABANDONED 2 (12.4, log 8). -/
def testResultField : TestResult → List Byte
  | .pass e => u8 0 ++ optional u8 (some e)
  | .fail e => u8 1 ++ optional u8 (some e)
  | .abandoned => u8 2 ++ optional u8 none

/-- An image state, its saved revision behind a presence byte (12.4, log 8). -/
def imageField : ImageState → List Byte
  | .valid r => u8 0 ++ optional bytes16 (some r)
  | .invalid => u8 1 ++ optional bytes16 none
  | .saving => u8 2 ++ optional bytes16 none

/-- A location record, in the order of R68. -/
def locationField (r : LocationRecord) : List Byte :=
  postField r.post ++ flag r.place.isSome ++ optional (fun p => u24 p.chainage) r.place ++
    optional (fun p => u8 (carriagewayCode p.carriageway)) r.place ++ optional (fun p => u8 (sideCode p.side)) r.place ++
    optional (fun p => u8 (roadCode p.road)) r.place ++ optional u8 r.label ++ u8 (verificationCode r.verification) ++
    optional u16 r.filtered ++ optional postField r.probable ++ optional bytes32 r.serial

/-- A segment's configured fields, in the order of R168. -/
def segmentConfigField (c : SegmentConfig) : List Byte :=
  flag c.feedEnabled ++ u8 c.turnOn ++ u8 c.turnOff ++ u16 c.turnaround ++ u16 c.cableConstant ++ u16 c.tolerance ++
    u8 c.testThreshold ++ u8 c.ringPeriod ++ u8 c.ringOnTime ++ u16 c.ringTimeout

/-- A routing window, in the order of R110. -/
def windowField (w : Window) : List Byte :=
  flag w.enabled ++ u24 w.base ++ u8 w.sizeCode.val ++ u8 (windowCarriagewayCode w.carriageway) ++ linkField w.home ++
    u8 w.overflow ++ u16 w.classMask.toNat ++ u8 w.label

/-- A classifier entry, in the order of R53. -/
def classEntryField (e : ClassEntry) : List Byte :=
  flag e.enabled ++ u8 (entryKindCode e.kind) ++ u8 e.offset ++ u24 e.mask.toNat ++ bytes16 e.crc ++ flag e.chain ++
    flag e.inverse ++ flag e.reports ++ u8 e.weight

/-- What READ_CALL and a summary begin with, in the order of R72 and R92. -/
def callHead (n : CallNo) (c : Call) : List Byte :=
  refField (c.ref n) ++ u8 (callKindCode c.kind) ++ postField c.post ++ u8 (callStateCode c.state) ++
    u8 (classCode c.cls) ++ u8 c.weight ++ u8 c.priority ++ optional (fun p => u8 (phaseCode p)) c.phase ++
    optional linkField c.home

/-- The offered set, the owner with its channels, the three flags and the origin time (R72, R92). -/
def callTail (c : Call) : List Byte :=
  linkSetField c.offered ++ ownerField c.owner ++ optional channelField c.ownerChannel ++
    optional channelField c.joinedChannel ++ flag c.pathHeld ++ flag c.lineDown ++ flag c.transferred ++
    bytes32 c.origin

/-! ### The data of responses -/

/-- One link in READ_STATUS (R162). -/
def linkStatusField (d : LinkStatus) : List Byte :=
  flag d.up ++ u8 (modeCode d.mode) ++ optional u8 d.depth ++ optional u8 d.lossTime ++ u8 d.offers

/-- READ_STATUS, in the order of R162. Every field that may be absent, unsaved changes among them, stands behind a
presence byte: DESIGN CHOICE (log 8). -/
def statusField (d : StatusData) : List Byte :=
  flag d.running ++ u8 (resetCauseCode d.cause) ++ bytes32 d.clock ++ flag d.clockSet ++ optional bytes16 d.revision ++
    optional imageField d.image ++ optional flag d.unsaved ++ flag d.lock ++ linkStatusField d.linkA ++
    linkStatusField d.linkB ++ flag d.overrun ++ u8 d.callsInUse ++ u8 d.waitingCount ++ flag d.queueLoad ++
    u8 d.pendingLength ++ optional linkField d.defaultHome ++ optional u8 d.defaultOverflow ++
    optional u8 d.defaultWeight ++ d.segments.flatMap (fun g => u8 (feedCode g.feed) ++ holderField g.holder)

/-- READ_CALL, in the order of R72, with the place of a waiting call (R92). -/
def callDataField (d : CallData) : List Byte :=
  callHead d.number d.call ++ optional u8 d.overflowLeft ++ callTail d.call ++ locationField d.call.location ++
    optional u16 d.ringLeft ++ optional u8 d.place

/-- An abandoned-list entry, in the order of R83. -/
def abandonedField (e : AbandonedEntry) : List Byte :=
  postField e.post ++ bytes32 e.origin ++ u8 (classCode e.cls) ++ optional u24 e.chainage ++ bytes32 e.abandoned

/-- A pending-list entry with its place, in the order of R93. -/
def pendingField (x : PendingEntry × Nat) : List Byte :=
  postField x.1.post ++ bytes32 x.1.joined ++ u8 (classCode x.1.result.cls) ++ u8 x.1.result.weight ++ u8 (x.2 + 1)

/-- The configured part of a post, in the order of R20. -/
def postConfigField (c : Option PostConfig) : List Byte :=
  flag c.isSome ++ optional (fun p => u24 p.chainage) c ++ optional (fun p => u8 (carriagewayCode p.carriageway)) c ++
    optional (fun p => u8 (sideCode p.side)) c ++ optional (fun p => u8 (roadCode p.road)) c ++
    optional u16 (c.bind (·.cable)) ++ optional bytes32 (c.bind (·.serial))

/-- READ_POST: the five parts in the order of R20, each in the order of its rule (R21, R56, R44, R75). The probable post,
which R67 places beside the location part, stands right after that part: DESIGN CHOICE (log 8). -/
def postDataField (d : PostData) : List Byte :=
  postConfigField d.config ++ u8 (presenceCode d.post.presence) ++ u8 (hookCode d.post.hook) ++ u8 d.post.missed ++
    optional bytes32 d.post.lastSerial ++ optional (fun f => u8 (formatCode f)) d.post.lastFormat ++
    flag d.post.selected ++ flag d.post.ringing ++ flag d.post.echo ++ flag d.post.barred ++
    optional u16 d.post.filtered ++ u8 d.post.mismatch ++ u8 (verificationCode d.post.verification) ++
    sampleField d.post.lastSample ++ optional postField d.probable ++ counted (fun e => u8 e.val) d.post.alarms ++
    optional refField d.post.call ++ optional u8 d.place

/-- READ_SEGMENT, in the order of R19. -/
def segmentDataField (d : SegmentData) : List Byte :=
  segmentConfigField d.config ++ u8 (feedCode d.feed) ++ u8 d.trips ++ u8 (tempoCode d.tempo) ++ flag d.startUp ++
    holderField d.holder ++ optional testResultField d.lastTest ++
    optional (fun a : Addr => u8 (a.val + 1)) d.isolationPosition ++ u8 d.volts ++ flag d.overLimit

/-- The data of a DONE response (R176). A summary of LIST_CALLS has the fields of R92's list, without the snapshot its
record holds, since 32 snapshots do not fit a block: DEDUCED (log 31). -/
def replyField : Reply → List Byte
  | .empty => []
  | .status d => statusField d
  | .calls l => counted (fun x => callHead x.number x.call ++ callTail x.call) l
  | .call d => callDataField d
  | .abandoned l => counted abandonedField l
  | .pendingPosts l => counted pendingField l.zipIdx
  | .callPlaced r t => refField r ++ u16 t
  | .post d => postDataField d
  | .segment d => segmentDataField d
  | .segmentStored c => segmentConfigField c
  | .window w first last => windowField w ++ u24 first ++ u24 last
  | .windowStored w => windowField w
  | .classEntry e => classEntryField e
  | .defaultWeight w => u8 w
  | .classStored e => classEntryField e
  | .defaultsStored d => linkField d.home ++ u8 d.weight ++ u8 d.overflow
  | .linkStored c => u8 c.depth ++ u8 c.lossTime

/-- The body of a response: the result byte, and the data of a DONE (R176). -/
def resultField : Result → List Byte
  | .done r => u8 0 ++ replyField r
  | .refused c => u8 (refusalByte c)

/-! ### Notices -/

/-- A withdrawal's reason with the answering link, present for ANSWERED (R108). -/
def withdrawField : WithdrawReason → List Byte
  | .answered l => u8 1 ++ optional linkField (some l)
  | .depth => u8 2 ++ optional linkField none
  | .handover => u8 3 ++ optional linkField none

/-- The source link of a SEGMENT_STATE cause, present for COMMAND (R16). -/
def segmentCauseSource : SegmentCause → Option Link
  | .command l => some l
  | .startUp => none
  | .underVoltage => none
  | .voltageFall => none
  | .voltageReturn => none
  | .settled => none
  | .sweepDone => none
  | .babble => none
  | .overCurrent => none
  | .lineFault => none
  | .retry => none

/-- The table and the item of TABLES_CHANGED; the item is absent for DEFAULTS (R166, log 8). -/
def tableItemField : TableItem → List Byte
  | .post p => u8 1 ++ optional postField (some p)
  | .segment g => u8 2 ++ optional (fun g : SegId => u8 (g.val + 1)) (some g)
  | .window w => u8 3 ++ optional (fun w : WindowNo => u8 w.val) (some w)
  | .cls e => u8 4 ++ optional (fun e : EntryNo => u8 e.val) (some e)
  | .defaults => u8 5 ++ optional u8 none
  | .link l => u8 6 ++ optional linkField (some l)

/-- The source of TABLES_CHANGED (12.4). -/
def changeSourceCode : ChangeSource → Nat
  | .link .a => 1
  | .link .b => 2
  | .learned => 3

/-- One link in LINK_STATE (R161). -/
def linkViewField (v : LinkView) : List Byte := flag v.up ++ u8 (modeCode v.mode) ++ u8 v.depth

/-- The error count of a test result, absent for ABANDONED (R139, R140). -/
def testErrorsOf : TestResult → Option Nat
  | .pass e => some e
  | .fail e => some e
  | .abandoned => none

/-- The code of a test result (12.4). -/
def testResultCode : TestResult → Nat
  | .pass _ => 0
  | .fail _ => 1
  | .abandoned => 2

/-- The type of a notice's block (12.1). -/
def noticeCode : Notice → Nat
  | .callOffered .. => 0x41
  | .callWithdrawn .. => 0x42
  | .callAbandoned .. => 0x43
  | .callCleared .. => 0x44
  | .callTransferred .. => 0x45
  | .pathWait .. => 0x46
  | .lineLost .. => 0x47
  | .lineRestored .. => 0x48
  | .callbackUnanswered .. => 0x49
  | .callbackFailed .. => 0x4A
  | .queueLoad .. => 0x4B
  | .postFound .. => 0x4C
  | .postLost .. => 0x4D
  | .postMismatch .. => 0x4E
  | .alarmRaised .. => 0x4F
  | .alarmCleared .. => 0x50
  | .segmentState .. => 0x51
  | .babblerIsolated .. => 0x52
  | .testResult .. => 0x53
  | .handoverDone .. => 0x54
  | .linkState .. => 0x55
  | .tablesChanged .. => 0x56
  | .saveDone .. => 0x57
  | .started .. => 0x58

/-- The body of a notice, its fields in the order its own rule lists them (R176). -/
def noticeField : Notice → List Byte
  | .callOffered r c left =>
    refField r ++ u8 (callKindCode c.kind) ++ postField c.post ++ u8 (classCode c.cls) ++ u8 c.weight ++
      u8 c.priority ++ optional (fun p => u8 (phaseCode p)) c.phase ++ optional linkField c.home ++ optional u8 left ++
      flag c.lineDown ++ flag c.transferred ++ bytes32 c.origin ++ locationField c.location
  | .callWithdrawn r p reason => refField r ++ postField p ++ withdrawField reason
  | .callAbandoned r p t cls cause =>
    optional refField r ++ postField p ++ bytes32 t ++ u8 (classCode cls) ++ u8 (endCauseCode cause)
  | .callCleared r p was owner cause releasing =>
    refField r ++ postField p ++ u8 (callStateCode was) ++ optional linkField owner ++ u8 (endCauseCode cause) ++
      optional linkField releasing
  | .callTransferred r p st former new cause =>
    refField r ++ postField p ++ u8 (callStateCode st) ++ linkField former ++ optional linkField new ++
      u8 (transferCauseCode cause)
  | .pathWait r p h ahead => refField r ++ postField p ++ holderField h ++ u8 ahead
  | .lineLost r p => refField r ++ postField p
  | .lineRestored r p => refField r ++ postField p
  | .callbackUnanswered r p former t rang => refField r ++ postField p ++ ownerField former ++ bytes32 t ++ u16 rang
  | .callbackFailed r p former cause => refField r ++ postField p ++ ownerField former ++ u8 (endCauseCode cause)
  | .queueLoad raised waiting pendingLength => u8 (if raised then 1 else 2) ++ u8 waiting ++ u8 pendingLength
  | .postFound p serial h => postField p ++ bytes32 serial ++ u8 (hookCode h)
  | .postLost p => postField p
  | .postMismatch p new previous f probable last stored =>
    postField p ++ u8 (verificationCode new) ++ u8 (verificationCode previous) ++ optional u16 f ++
      optional postField probable ++ optional bytes32 last ++ optional bytes32 stored
  | .alarmRaised p e l => postField p ++ u8 e.val ++ locationField l
  | .alarmCleared p e => postField p ++ u8 e.val
  | .segmentState g new previous cause trips =>
    u8 (g.val + 1) ++ u8 (feedCode new) ++ u8 (feedCode previous) ++ u8 (segmentCauseCode cause) ++ u8 trips ++
      optional linkField (segmentCauseSource cause)
  | .babblerIsolated p serial previous => postField p ++ optional bytes32 serial ++ u8 (presenceCode previous)
  | .testResult p l r cause =>
    u8 (p.seg.val + 1) ++ postField p ++ linkField l ++ u8 (testResultCode r) ++ optional u8 (testErrorsOf r) ++
      optional (fun c => u8 (abandonCauseCode c)) cause
  | .handoverDone l m n => linkField l ++ u8 (handoverCode m) ++ u8 n
  | .linkState va vb => linkViewField va ++ linkViewField vb
  | .tablesChanged r i src => bytes16 r ++ tableItemField i ++ u8 (changeSourceCode src)
  | .saveDone r => u8 (if r.isSome then 1 else 2) ++ optional bytes16 r
  | .started cause image r t isSet =>
    u8 (resetCauseCode cause) ++ imageField image ++ bytes16 r ++ bytes32 t ++ flag isSet

/-! ### The block (12.1) -/

/-- The start marker and the idle fill byte (12.1). -/
def startMarker : Byte := 0xC5#8

def idleFill : Byte := 0x3C#8

/-- A message block around a tag, a type and a body: marker, length, tag, type, body, and the CRC over all but
the marker (12.1). -/
def frameBlock (tag : Tag) (type : Byte) (body : List Byte) : List Byte :=
  let covered := u16 (body.length + 3) ++ bytes16 tag ++ [type] ++ body
  startMarker :: covered ++ bytes16 (crc16 covered)

/-- A queued block as it goes out: a response with its command's tag and type plus 80 hex, a notice with tag 0000
(R176). -/
def Block.bytes : Block → List Byte
  | .response tag command r => frameBlock tag (byteOf (commandCode command + 0x80)) (resultField r)
  | .notice n => frameBlock 0#16 (byteOf (noticeCode n)) (noticeField n)

end Sys2Proof.Machine
end

