-- ==== Sys2Proof/Machine/Feed.lean ====
section
/-! DEFINITION. The Line Unit (01): the feed states with their timers and marks, what the posts of a segment
meet as it changes (R14, R15), SEGMENT_STATE (R16), trips (R10), and the start of the sweeps (R34, R37, R40). -/

namespace Sys2Proof.Machine

open Sys2Proof

/-- The under-voltage filter time, 200 ms (R5). -/
def filterTime : Nat := 200

/-- The re-power time, 2 s (R7). -/
def rePowerTime : Nat := 2000

/-- The trip retry time, 5 s (R11). -/
def retryTime : Nat := 5000

/-- The Line Unit's part as the segment moves to a feed state at time `now`: the filter goes on only among
the states in service (R5), POWERING is entered with its timer running from FEED_LOST only (R7), TRIPPED
starts the retry (R10), a closing of the switch sets the feed-on mark (R2), and carrier is timed in
DISCOVERY and ACTIVE only (R38). -/
def LineUnit.moveTo (new : FeedState) (now : Nat) (u : LineUnit) : LineUnit :=
  { u with
    feed := new
    underFilter := if u.feed.inService && new.inService then u.underFilter else none
    rePower := if u.feed = .feedLost && new = .powering then some (now + rePowerTime) else none
    retry := if new = .tripped then some (now + retryTime) else none
    feedOn := if !u.feed.powered && new.powered then some now else u.feedOn
    carrierSince := if u.feed = .discovery && new = .active then u.carrierSince else none }

/-- A post record as its segment leaves service (R14), its alarms with it (R51). -/
def Post.leaveService (r : Post) : Post :=
  { r with presence := .unknown, hook := .unknown, missed := 0, selected := false, ringing := false, echo := false,
           alarms := [] }

/-- The Poll Scheduler stops addressing a segment: sweeps end, the queue is emptied, and the open window, if
any, is dropped (R14, R36, log 10). -/
def Poll.stopAddressing (q : Poll) : Poll :=
  { q.toNormal with discovery := none, isolation := none, isolationPosition := none, queue := [], sent := none }

/-- The posts of a segment entering a state out of service (R14); F goes too where it was in service (R60). -/
def resetPosts (g : SegId) (wasInService : Bool) (s : State) : State :=
  let s := modPostsOf g (fun r =>
    { r.leaveService with filtered := if wasInService then none else r.filtered }) s
  modPoll g Poll.stopAddressing s

/-- Line loss for a whole segment: the Call Manager for each post in ascending address, then the Path Switch
(R15, R88). -/
def segmentLineLoss (g : SegId) (s : State) : State :=
  let s := forEach allAddrs (fun a s => callLineLoss ⟨g, a⟩ s) s
  let s := { s with requests := s.requests.filter (fun r => r.post.seg ≠ g) }
  abandonTestAndGrant g .lineLoss s

/-- Whether a post of a segment is MUTED. -/
def State.muted (s : State) (g : SegId) (a : Addr) : Bool := (s.post ⟨g, a⟩).presence = .muted

/-- The discovery sweep starts at address 1 in NORMAL tempo (R37). -/
def Poll.startDiscovery (q : Poll) : Poll := { q.toNormal with discovery := some 0, lastQueued := false }

/-- ACTIVE begins: sweeps are over, the sweep position is the first address not MUTED, and a new pass begins
(R34). -/
def Poll.startActive (first : Addr) (q : Poll) : Poll :=
  { q with discovery := none, isolation := none, isolationPosition := none, sweepPosition := first, covered := 0 }

/-- The isolation sweep starts: routine polling and any discovery sweep end, the tempo is NORMAL, and MUTE_ALL
goes out in the next slot (R40). -/
def Poll.startIsolation (q : Poll) : Poll :=
  { q.toNormal with discovery := none, isolation := some .muteAllNext, isolationPosition := none }

/-- What entering a feed state does beyond the Line Unit's own part: the posts and line loss out of service,
the sweep or the grant in service (R8, R9, R14, R15, R115). -/
def enterFeed (g : SegId) (old new : FeedState) (s : State) : State :=
  match new with
  | .discovery => modPoll g Poll.startDiscovery s
  | .active => evaluateGrant g (modPoll g (Poll.startActive ((allAddrs.find? (fun a => !s.muted g a)).getD 0)) s)
  | .isolating => modPoll g Poll.startIsolation s
  | .off => leave s
  | .powering => leave s
  | .feedLost => leave s
  | .tripped => leave s
  | .locked => leave s
where
  leave (s : State) : State :=
    let s := resetPosts g old.inService s
    if old.inService then segmentLineLoss g s else s

/-- Change a segment's feed state: the Line Unit's timers and marks, the posts, line loss, and SEGMENT_STATE to
both links (R2, R14 to R16). -/
def changeFeed (g : SegId) (new : FeedState) (cause : SegmentCause) (s : State) : State :=
  let old := (s.line g).feed
  let s := modLine g (LineUnit.moveTo new s.timebase) s
  let s := enterFeed g old new s
  sendBoth (.segmentState g new old cause (s.line g).trips) s

/-- The trip count after a trip, against the feed-on mark: one more within 30 s of it, else 1 (R10). -/
def LineUnit.tripCount (now : Nat) (u : LineUnit) : Nat :=
  match u.feedOn with
  | some t => if now - t ≤ 30000 then min 3 (u.trips + 1) else 1
  | none => 1

/-- A trip: the count is updated, and the segment goes to LOCKED at 3, else to TRIPPED (R10). -/
def trip (g : SegId) (cause : SegmentCause) (s : State) : State :=
  let count := (s.line g).tripCount s.timebase
  let s := modLine g (fun u => { u with trips := count }) s
  changeFeed g (if count = 3 then .locked else .tripped) cause s

/-! ### The feed monitor (R4 to R7) -/

/-- The feed voltage falls below the turn-off threshold: in service the filter starts, in POWERING with the
timer running the segment goes to FEED_LOST (R5, R7). -/
def voltageFalls (g : SegId) (s : State) : State :=
  let u := s.line g
  if u.feed.inService then
    if u.underFilter.isNone then modLine g (fun u => { u with underFilter := some (s.timebase + filterTime) }) s else s
  else if u.feed = .powering && u.rePower.isSome then changeFeed g .feedLost .voltageFall s
  else s

/-- The feed voltage is at or above the turn-off threshold again: a running filter stops (R5). -/
def voltageReturns (g : SegId) (s : State) : State := modLine g (fun u => { u with underFilter := none }) s

/-- The feed voltage rises above the turn-on threshold: FEED_LOST ends, and POWERING starts its stopped
re-power timer (R6, R7). -/
def voltageRises (g : SegId) (s : State) : State :=
  let u := s.line g
  if u.feed = .feedLost then changeFeed g .powering .voltageReturn s
  else if u.feed = .powering && u.rePower.isNone then
    modLine g (fun u => { u with rePower := some (s.timebase + rePowerTime) }) s
  else s

/-- The crossings that a write of the thresholds makes at the present voltage (R4). -/
def thresholdCrossings (g : SegId) (old new : SegmentConfig) (s : State) : State :=
  let v := (s.line g).volts
  if (s.line g).feed.powered then
    if old.turnOff ≤ v && v < new.turnOff then voltageFalls g s
    else
      let s := if v < old.turnOff && new.turnOff ≤ v then voltageReturns g s else s
      if v ≤ old.turnOn && new.turnOn < v then voltageRises g s else s
  else s

/-- The feed monitor's readings at an event (R19, log 15). An over-current reading that a voltage row carries is recorded
and trips nothing, since the trip is the row OVER_CURRENT's: DESIGN CHOICE (R10, log 15). -/
def sampleFeed (g : SegId) (volts : Nat) (overLimit : Bool) (s : State) : State :=
  modLine g (fun u => { u with volts := volts, overLimit := overLimit }) s

/-! ### The rows of the Line Unit -/

/-- FEED_VOLTAGE_FALL (R5, R7). -/
def feedVoltageFall (g : SegId) (volts : Nat) (overLimit : Bool) (s : State) : State :=
  outsideReset (fun s =>
    let s := sampleFeed g volts overLimit s
    if volts < (s.segmentConfig g).turnOff then voltageFalls g s else s) s

/-- FEED_VOLTAGE_ABOVE_TURN_OFF (R5). -/
def feedVoltageAboveTurnOff (g : SegId) (volts : Nat) (overLimit : Bool) (s : State) : State :=
  outsideReset (fun s =>
    let s := sampleFeed g volts overLimit s
    if (s.segmentConfig g).turnOff ≤ volts then voltageReturns g s else s) s

/-- FEED_VOLTAGE_ABOVE_TURN_ON (R6, R7); a voltage above turn-on is above turn-off too, so a running filter
stops (R5). -/
def feedVoltageAboveTurnOn (g : SegId) (volts : Nat) (overLimit : Bool) (s : State) : State :=
  outsideReset (fun s =>
    let s := sampleFeed g volts overLimit s
    if (s.segmentConfig g).turnOn < volts then voltageRises g (voltageReturns g s) else s) s

/-- OVER_CURRENT: a trip in any powered state; with the switch open nothing is done (R2, R10). -/
def overCurrent (g : SegId) (volts : Nat) (s : State) : State :=
  outsideReset (fun s =>
    let s := sampleFeed g volts true s
    if (s.line g).feed.powered then trip g .overCurrent s else s) s

/-- UNDER_VOLTAGE_FILTER_EXPIRY: a running filter's expiry takes the segment to FEED_LOST (R5). -/
def underVoltageFilterExpiry (g : SegId) (s : State) : State :=
  outsideReset (fun s =>
    match (s.line g).underFilter with
    | none => s
    | some t => if (s.line g).feed.inService then changeFeed g .feedLost .underVoltage (reach t s) else s) s

/-- RE_POWER_TIMER_EXPIRY: a running timer's expiry takes the segment to DISCOVERY (R7). -/
def rePowerTimerExpiry (g : SegId) (s : State) : State :=
  outsideReset (fun s =>
    match (s.line g).rePower with
    | none => s
    | some t => if (s.line g).feed = .powering then changeFeed g .discovery .settled (reach t s) else s) s

/-- TRIP_RETRY_EXPIRY: the switch closes and the segment goes to POWERING (R11). -/
def tripRetryExpiry (g : SegId) (s : State) : State :=
  outsideReset (fun s =>
    match (s.line g).retry with
    | none => s
    | some t => if (s.line g).feed = .tripped then changeFeed g .powering .retry (reach t s) else s) s

/-- START_UP_SWITCH_ON: at its turn, a segment whose flag is still yes is switched on (R18). -/
def startUpSwitchOn (g : SegId) (s : State) : State :=
  outsideReset (fun s =>
    if (s.line g).startUp then
      let s := reachTimer (s.line g).startUpAt s
      let s := modLine g (fun u => { u with startUp := false, startUpAt := none }) s
      if (s.line g).feed = .off then changeFeed g .powering .startUp s else s
    else s) s

/-! ### The FEED command (R13) -/

/-- A FEED command given to a segment whose start-up pending flag is set clears it (R13, R18). -/
def clearStartUp (g : SegId) (s : State) : State :=
  modLine g (fun u => { u with startUp := false, startUpAt := none }) s

/-- The effect of FEED OFF where it is not refused (R13). -/
def feedOffEffect (l : Link) (g : SegId) (s : State) : State :=
  let s := clearStartUp g s
  if (s.line g).feed = .off then s else changeFeed g .off (.command l) s

/-- The effect of FEED ON where it is not refused (R13). -/
def feedOnEffect (l : Link) (g : SegId) (s : State) : State :=
  let s := clearStartUp g s
  if (s.line g).feed.powered then s else changeFeed g .powering (.command l) s

/-- The effect of FEED RE-ENABLE where it is not refused: the count is 0 (R12, R13). -/
def feedReEnableEffect (l : Link) (g : SegId) (s : State) : State :=
  changeFeed g .powering (.command l) (modLine g (fun u => { u with trips := 0 }) s)

/-! ### The meanings of the rows -/

/-- The row FEED_VOLTAGE_FALL (R5). -/
def execFeedVoltageFall (g : SegId) (volts : Nat) (overLimit : Bool) (s : State) : Host.Outcome State Fault Refusal :=
  .next (feedVoltageFall g volts overLimit s)

/-- The row FEED_VOLTAGE_ABOVE_TURN_OFF (R5). -/
def execFeedVoltageAboveTurnOff (g : SegId) (volts : Nat) (overLimit : Bool) (s : State) : Host.Outcome State Fault Refusal :=
  .next (feedVoltageAboveTurnOff g volts overLimit s)

/-- The row FEED_VOLTAGE_ABOVE_TURN_ON (R6). -/
def execFeedVoltageAboveTurnOn (g : SegId) (volts : Nat) (overLimit : Bool) (s : State) : Host.Outcome State Fault Refusal :=
  .next (feedVoltageAboveTurnOn g volts overLimit s)

/-- The row OVER_CURRENT (R10). -/
def execOverCurrent (g : SegId) (volts : Nat) (s : State) : Host.Outcome State Fault Refusal :=
  .next (overCurrent g volts s)

/-- The row UNDER_VOLTAGE_FILTER_EXPIRY (R5). -/
def execUnderVoltageFilterExpiry (g : SegId) (s : State) : Host.Outcome State Fault Refusal :=
  .next (underVoltageFilterExpiry g s)

/-- The row RE_POWER_TIMER_EXPIRY (R7). -/
def execRePowerTimerExpiry (g : SegId) (s : State) : Host.Outcome State Fault Refusal :=
  .next (rePowerTimerExpiry g s)

/-- The row TRIP_RETRY_EXPIRY (R11). -/
def execTripRetryExpiry (g : SegId) (s : State) : Host.Outcome State Fault Refusal :=
  .next (tripRetryExpiry g s)

/-- The row START_UP_SWITCH_ON (R18). -/
def execStartUpSwitchOn (g : SegId) (s : State) : Host.Outcome State Fault Refusal :=
  .next (startUpSwitchOn g s)

end Sys2Proof.Machine
end

