-- ==== Sys2Proof/Machine/Polling.lean ====
section
/-! DEFINITION. The Poll Scheduler (02): the choice of each poll slot, the windows orders open, misses and
presence, the routine sweep and its tempo, the discovery and isolation sweeps, carrier timing, babble. -/

namespace Sys2Proof.Machine

open Sys2Proof

/-! ### Sending (R24, R30) -/

/-- Whether an order to a post opens a response window: every addressed order does, but one other than
UNMUTE to a MUTED post (R24, R30). -/
def State.opensWindow (s : State) (p : PostId) (o : Order) : Bool :=
  o ≠ .muteAll && (o = .unmute || (s.post p).presence ≠ .muted)

/-- The kind byte of an order (R177). -/
def Order.kind : Order → Byte
  | .status => 0x01#8
  | .select => 0x02#8
  | .deselect => 0x03#8
  | .registered => 0x04#8
  | .clear => 0x05#8
  | .ringOn => 0x06#8
  | .ringOff => 0x07#8
  | .mute => 0x08#8
  | .unmute => 0x09#8
  | .echoOn => 0x0A#8
  | .echoOff => 0x0B#8
  | .muteAll => 0x0C#8

/-- The bytes of an order burst: address, 00 hex for MUTE_ALL, then kind, then their CRC (R177). -/
def orderBurst (a : Addr) (o : Order) : List Byte :=
  let content := [if o = .muteAll then 0x00#8 else BitVec.ofNat 8 (a.val + 1), o.kind]
  content ++ bytes16 (crc16 content)

/-- Send an order: its burst goes out on the pair, and its window opens where it has one (R24, R177). -/
def sendOrder (p : PostId) (o : Order) (queued : Bool) (s : State) : State :=
  let s := modPoll p.seg (fun q => { q with burst := orderBurst p.addr o }) s
  if s.opensWindow p o then modPoll p.seg (fun q => { q with sent := some ⟨p.addr, o, queued, false⟩ }) s else s

/-! ### Presence going LOST or MUTED (R26, R29, R51, R60) -/

/-- A post becomes LOST or MUTED: its alarm set is emptied and F is cleared (R51, R60). -/
def Post.fallTo (presence : Presence) (r : Post) : Post :=
  { r with presence := presence, alarms := [], filtered := none }

/-- What the line part of a PRESENT post takes before its line loss: hook UNKNOWN, its three flags no (R29). -/
def Post.dropLine (r : Post) : Post := { r with hook := .unknown, selected := false, ringing := false, echo := false }

/-- A post's own line loss reaches the Call Manager and the Path Switch (R29). -/
def postLineLoss (p : PostId) (s : State) : State := pathLineLoss p (callLineLoss p s)

/-- Take a post's entry out of its order queue (R26). -/
def dropEntry (p : PostId) (s : State) : State :=
  modPoll p.seg (fun q => { q with queue := q.queue.filter (fun e => e.addr ≠ p.addr) }) s

/-- A PRESENT post becomes LOST: its queue entry goes, POST_LOST is sent, line loss is raised (R26, R29). -/
def losePresent (p : PostId) (s : State) : State :=
  let s := dropEntry p (modPost p (fun r => (r.fallTo .lost).dropLine) s)
  postLineLoss p (sendBoth (.postLost p) s)

/-- What a miss makes of the line part and of presence (R26); a miss on MUTE is not counted (R30). The queue entry of a
post that becomes LOST is removed, whatever its presence was (R31); so is a newer order that R26 lets stand: DEDUCED
(log 33). -/
def countMiss (p : PostId) (o : Order) (s : State) : State :=
  if o = .mute then s
  else
    let r := s.post p
    let count := min 3 (r.missed + 1)
    let s := modPost p (fun r => { r with missed := count }) s
    if count = 3 then
      match r.presence with
      | .present => losePresent p s
      | .unknown => dropEntry p (modPost p (Post.fallTo .lost) s)
      | .muted => sendBoth (.postLost p) (dropEntry p (modPost p (Post.fallTo .lost) s))
      | .lost => s
    else s

/-- A missed order from the queue is placed at its tail again where the queue holds nothing for its address
and the post can still be asked (R26). -/
def retryMissed (p : PostId) (w : SentOrder) (s : State) : State :=
  let presence := (s.post p).presence
  if w.queued && w.order ≠ .status && !(s.poll p.seg).queue.any (fun e => e.addr = p.addr) &&
      (presence = .present || (w.order = .unmute && presence = .muted)) then
    modPoll p.seg (Poll.enter p.addr w.order) s
  else s

/-! ### The sweeps (R37, R40, R41) -/

/-- The discovery sweep moves past a settled address; after address 16 the segment goes to ACTIVE (R8, R37). -/
def advanceDiscovery (g : SegId) (a : Addr) (s : State) : State :=
  match allAddrs.find? (fun b => a < b) with
  | some b => modPoll g (fun q => { q with discovery := some b }) s
  | none => changeFeed g .active .sweepDone s

/-- The discovery sweep hears of a result of the address it is settling: answered, or missed and LOST (R37). -/
def settleDiscovery (p : PostId) (answered : Bool) (s : State) : State :=
  if (s.line p.seg).feed = .discovery && (s.poll p.seg).discovery = some p.addr &&
      (answered || (s.post p).presence = .lost) then advanceDiscovery p.seg p.addr s
  else s

/-- The isolation sweep goes on to the first of the remaining addresses that is not MUTED; where there is none
it is complete, and the segment goes to ACTIVE (R9, R41). -/
def isolateAmong (g : SegId) (remaining : List Addr) (s : State) : State :=
  match remaining.find? (fun a => !s.muted g a) with
  | some a => modPoll g (fun q => { q with isolationPosition := some a, isolation := some .unmuteNext }) s
  | none => changeFeed g .active .sweepDone s

/-- The isolation sweep goes on past an address (R41). -/
def isolateAfter (g : SegId) (a : Addr) (s : State) : State := isolateAmong g (allAddrs.filter (fun b => a < b)) s

/-- The isolation sweep hears of the result of an order: the result of its STATUS settles the address, unless
the post is still UNKNOWN (R41). -/
def settleIsolation (p : PostId) (o : Order) (s : State) : State :=
  if (s.line p.seg).feed = .isolating && (s.poll p.seg).isolation = some .statusNext &&
      (s.poll p.seg).isolationPosition = some p.addr && o = .status && (s.post p).presence ≠ .unknown then
    isolateAfter p.seg p.addr s
  else s

/-- The sweep in progress hears of the result of an order to a post. -/
def settleSweep (p : PostId) (o : Order) (answered : Bool) (s : State) : State :=
  settleIsolation p o (settleDiscovery p answered s)

/-- The duration of a poll slot and of a listen period (R32, R40). -/
def slotTime : Nat := 40

def listenTime : Nat := 200

/-- The end of a listen period that begins at the end of the present slot (R40, R41). -/
def State.listenEnd (s : State) : Nat := s.timebase + slotTime + listenTime

/-- Put the isolation sweep at a step. -/
def isolationStep (g : SegId) (step : IsolationStep) (s : State) : State :=
  modPoll g (fun q => { q with isolation := some step }) s

/-- Send the isolation sweep's order to the address it deals with. -/
def sweepOrder (g : SegId) (o : Order) (s : State) : State :=
  match (s.poll g).isolationPosition with
  | some a => sendOrder ⟨g, a⟩ o false s
  | none => s

/-- A slot of an ISOLATING segment: what the sweep sends, whatever the carrier (R33, R40, R41). -/
def isolationSlot (g : SegId) (s : State) : State :=
  let s := modPoll g (fun q => { q with lastQueued := false }) s
  match (s.poll g).isolation with
  | some .muteAllNext =>
    isolationStep g (.muteAllListen s.listenEnd) (modPoll g (fun q => { q with burst := orderBurst 0 .muteAll }) s)
  | some .unmuteNext => isolationStep g (.unmuteListen s.listenEnd) (sweepOrder g .unmute s)
  | some .statusNext => sweepOrder g .status s
  | some .muteNext => isolationStep g (.muteListen s.listenEnd) (sweepOrder g .mute s)
  | some (.muteAllListen _) => s
  | some (.unmuteListen _) => s
  | some (.muteListen _) => s
  | none => s

/-! ### The routine sweep and the tempo (R32 to R36) -/

/-- The 16 addresses from a position on, wrapping from 16 to 1 (R34). -/
def addressesFrom (a : Addr) : List Addr := allAddrs.map (fun i => a + i)

/-- The first address from a position on that is not MUTED, with the number of MUTED ones passed over (R34). -/
def State.firstUnmuted (s : State) (g : SegId) (a : Addr) : Option (Nat × Addr) :=
  match (addressesFrom a).findIdx? (fun b => !s.muted g b) with
  | none => none
  | some k => ((addressesFrom a)[k]?).map (fun b => (k, b))

/-- Whether routine polling is due in DISCOVERY or ACTIVE: always in DISCOVERY and in NORMAL tempo, in ECONOMY
while a pass runs (R32). -/
def State.routineDue (s : State) (g : SegId) : Bool :=
  (s.line g).feed = .discovery || (s.poll g).tempo = .normal || (s.poll g).economyPass

/-- Whether any post of a segment has a call (R35). -/
def State.anyCall (s : State) (g : SegId) : Bool := allAddrs.any (fun a => (s.post ⟨g, a⟩).call.isSome)

/-- What holds as a segment enters ECONOMY at a pass's end in NORMAL tempo (R35). -/
def State.economyAllowed (s : State) (g : SegId) : Bool :=
  s.onBattery && (s.line g).feed = .active && !s.anyCall g && (s.path g).holder = .none && (s.poll g).queue.isEmpty

/-- The time from entering ECONOMY, or from the start of an economy pass, to the next pass (R35). -/
def economyTime : Nat := 10000

/-- A pass completes: a new one begins, an economy pass ends, and in NORMAL tempo the segment may enter
ECONOMY (R34, R35). -/
def completePass (g : SegId) (s : State) : State :=
  let s := modPoll g Poll.newPass s
  match (s.poll g).tempo with
  | .economy => modPoll g (fun q => { q with economyPass := false }) s
  | .normal =>
    if s.economyAllowed g then
      modPoll g (fun q => { q with tempo := .economy, economyPass := false,
                                   economyDue := some (s.timebase + economyTime) }) s
    else s

/-- A routine slot in ACTIVE: STATUS to the address at the sweep position, and the position moves on past it to
the next that is not MUTED; a pass is complete at 16 addresses (R34, log 30). -/
def routineActive (g : SegId) (s : State) : State :=
  match s.firstUnmuted g (s.poll g).sweepPosition with
  | none => s
  | some (before, a) =>
    match s.firstUnmuted g (a + 1) with
    | none => s
    | some (after, next) =>
      let s := sendOrder ⟨g, a⟩ .status false s
      let s := modPoll g (fun q => { q with sweepPosition := next, covered := q.covered + before + 1 + after }) s
      if 16 ≤ (s.poll g).covered then completePass g s else s

/-- A routine slot (R32): STATUS by the discovery sweep or by the routine sweep. -/
def routineSlot (g : SegId) (s : State) : State :=
  let s := modPoll g (fun q => { q with lastQueued := false }) s
  match (s.poll g).discovery with
  | some a => sendOrder ⟨g, a⟩ .status false s
  | none => if (s.line g).feed = .active then routineActive g s else s

/-- A slot that carries the head entry's order, which leaves the queue (R31, R32). -/
def queueSlot (g : SegId) (e : QueueEntry) (rest : List QueueEntry) (s : State) : State :=
  sendOrder ⟨g, e.addr⟩ e.order true (modPoll g (fun q => { q with lastQueued := true, queue := rest }) s)

/-- The choice of a slot in DISCOVERY and ACTIVE (R32). -/
def pollingSlot (g : SegId) (s : State) : State :=
  let due := s.routineDue g
  match (s.poll g).queue with
  | e :: rest => if (s.poll g).lastQueued && due then routineSlot g s else queueSlot g e rest s
  | [] => if due then routineSlot g s else modPoll g (fun q => { q with lastQueued := false }) s

/-- Begin timing carrier outside the response windows (R38). -/
def startCarrier (g : SegId) (s : State) : State :=
  modLine g (fun u => { u with carrierSince := some (u.carrierSince.getD s.timebase) }) s

/-- Whether carrier is timed in a feed state: DISCOVERY and ACTIVE (R38). -/
def FeedState.timesCarrier (f : FeedState) : Bool := f = .discovery || f = .active

/-- The on-battery input at a level; its deasserting returns every segment in ECONOMY to NORMAL (R36). -/
def setBattery (level : Bool) (s : State) : State :=
  let s := { s with onBattery := level }
  if level then s else forEach allSegs (fun g s => modPoll g Poll.toNormal s) s

/-! ### Rows -/

/-- POLL_SLOT: a slot in DISCOVERY or ACTIVE that meets carrier sends nothing and the carrier is timed (R33,
R38); one that meets an open window sends nothing (log 10). -/
def pollSlot (g : SegId) (carrier onBattery : Bool) (s : State) : State :=
  outsideReset (fun s =>
    let s := modPoll g (fun q => { q with burst := [] }) (setBattery onBattery s)
    if (s.poll g).sent.isSome then s
    else if (s.line g).feed.timesCarrier then (if carrier then startCarrier g s else pollingSlot g s)
    else if (s.line g).feed = .isolating then isolationSlot g s
    else s) s

/-- What a window that closes without an accepted report brings (R26). -/
def takeMiss (p : PostId) (w : SentOrder) (s : State) : State :=
  let s := modPoll p.seg (fun q => { q with sent := none }) s
  settleSweep p w.order false (retryMissed p w (countMiss p w.order s))

/-- RESPONSE_WINDOW_CLOSE: a miss (R26), and carrier present at the close is timed from it (R38). -/
def responseWindowClose (g : SegId) (carrier : Bool) (s : State) : State :=
  outsideReset (fun s =>
    match (s.poll g).sent with
    | none => s
    | some w =>
      let s := takeMiss ⟨g, w.addr⟩ w s
      if carrier && (s.line g).feed.timesCarrier then startCarrier g s else s) s

/-- CARRIER_START: carrier outside a window begins to be timed (R38). -/
def carrierStart (g : SegId) (s : State) : State :=
  outsideReset (fun s =>
    if (s.line g).feed.timesCarrier && (s.poll g).sent.isNone then startCarrier g s else s) s

/-- Carrier timing stops (R38). -/
def stopCarrier (g : SegId) (s : State) : State := modLine g (fun u => { u with carrierSince := none }) s

/-- ATTENTION_BURST: in ACTIVE a new pass begins at once in NORMAL tempo (R38, R39). -/
def attentionBurst (g : SegId) (s : State) : State :=
  outsideReset (fun s =>
    let s := stopCarrier g s
    if (s.line g).feed = .active then modPoll g (fun q => q.toNormal.newPass) s else s) s

/-- The timed carrier that is babble, 500 ms (R38). -/
def babbleTime : Nat := 500

/-- BABBLE: in DISCOVERY and ACTIVE the segment goes to ISOLATING (R9, R38). -/
def babble (g : SegId) (s : State) : State :=
  outsideReset (fun s =>
    if (s.line g).feed.timesCarrier then
      changeFeed g .isolating .babble (reachTimer ((s.line g).carrierSince.map (· + babbleTime)) s)
    else s) s

/-- The stopping order of a muted post's flag, where it has one (R29). -/
def Post.stoppingOrder (r : Post) : Option Order :=
  if r.selected then some .deselect else if r.ringing then some .ringOff else if r.echo then some .echoOff else none

/-- The babbler is MUTED: BABBLER_ISOLATED is sent, and a PRESENT post meets line loss with its stopping order
requested (R29, R41, R51, R60). -/
def muteBabbler (p : PostId) (s : State) : State :=
  let r := s.post p
  let s := modPost p (Post.fallTo .muted) s
  let s := sendBoth (.babblerIsolated p r.lastSerial r.presence) s
  if r.presence = .present then
    let s := modPost p Post.dropLine s
    let s := match r.stoppingOrder with
      | some o => requestOrder p o s
      | none => s
    postLineLoss p s
  else s

/-- The sweep judges the carrier at the end of its listen period (R40, R41). -/
def judgeListen (g : SegId) (carrier : Bool) (s : State) : State :=
  match (s.poll g).isolation with
  | some (.muteAllListen t) =>
    if carrier then trip g .lineFault (reach t s) else isolateAmong g allAddrs (reach t s)
  | some (.unmuteListen t) => isolationStep g (if carrier then .muteNext else .statusNext) (reach t s)
  | some (.muteListen t) =>
    if carrier then trip g .lineFault (reach t s)
    else
      match (s.poll g).isolationPosition with
      | some a => isolateAfter g a (muteBabbler ⟨g, a⟩ (reach t s))
      | none => s
  | some .muteAllNext => s
  | some .unmuteNext => s
  | some .statusNext => s
  | some .muteNext => s
  | none => s

/-- ISOLATION_LISTEN_END: taken while the segment is ISOLATING (R40, R41). -/
def isolationListenEnd (g : SegId) (carrier : Bool) (s : State) : State :=
  outsideReset (fun s => if (s.line g).feed = .isolating then judgeListen g carrier s else s) s

/-- ECONOMY_PASS_START: an economy pass begins, and the next falls 10 s later (R35). -/
def economyPassStart (g : SegId) (s : State) : State :=
  outsideReset (fun s =>
    match (s.poll g).tempo, (s.poll g).economyDue with
    | .economy, some t =>
      modPoll g (fun q => { q with economyPass := true, covered := 0, economyDue := some (t + economyTime) }) (reach t s)
    | .economy, none => s
    | .normal, _ => s) s

/-- ON_BATTERY_DEASSERT (R36). -/
def onBatteryDeassert (s : State) : State := outsideReset (setBattery false) s

/-- The effect of UNMUTE_POST where it is not refused (R43). -/
def unmuteEffect (p : PostId) (s : State) : State := requestOrder p .unmute s

/-! ### The meanings of the rows -/

/-- The row POLL_SLOT (R32). -/
def execPollSlot (g : SegId) (carrier : Bool) (onBattery : Bool) (s : State) : Host.Outcome State Fault Refusal :=
  .next (pollSlot g carrier onBattery s)

/-- The row RESPONSE_WINDOW_CLOSE (R26). -/
def execResponseWindowClose (g : SegId) (carrier : Bool) (s : State) : Host.Outcome State Fault Refusal :=
  .next (responseWindowClose g carrier s)

/-- The row CARRIER_START (R38). -/
def execCarrierStart (g : SegId) (s : State) : Host.Outcome State Fault Refusal :=
  .next (carrierStart g s)

/-- The row ATTENTION_BURST (R39). -/
def execAttentionBurst (g : SegId) (s : State) : Host.Outcome State Fault Refusal :=
  .next (attentionBurst g s)

/-- The row BABBLE (R38). -/
def execBabble (g : SegId) (s : State) : Host.Outcome State Fault Refusal :=
  .next (babble g s)

/-- The row ISOLATION_LISTEN_END (R41). -/
def execIsolationListenEnd (g : SegId) (carrier : Bool) (s : State) : Host.Outcome State Fault Refusal :=
  .next (isolationListenEnd g carrier s)

/-- The row ECONOMY_PASS_START (R35). -/
def execEconomyPassStart (g : SegId) (s : State) : Host.Outcome State Fault Refusal :=
  .next (economyPassStart g s)

/-- The row ON_BATTERY_DEASSERT (R36). -/
def execOnBatteryDeassert (s : State) : Host.Outcome State Fault Refusal :=
  .next (onBatteryDeassert s)

end Sys2Proof.Machine
end

