-- ==== Sys2Proof/Machine/TableCommands.lean ====
section
/-! DEFINITION. The commands on the tables, the segments, the posts and the part as a whole (01, 02, 03, 06, 10,
11): status, time, reads, writes with their clamps, FEED, UNMUTE_POST, the structure lock and SAVE_IMAGE. -/

namespace Sys2Proof.Machine

open Sys2Proof

/-! ### READ_STATUS and SET_TIME (R162, R163) -/

/-- One link as READ_STATUS gives it, the configured fields absent during LOADING (R162). -/
def State.linkStatus (s : State) (l : Link) : LinkStatus :=
  let cfg := s.tables.links.get l
  { up := (s.link l).up, mode := (s.link l).mode, depth := if s.loading then none else some cfg.depth,
    lossTime := if s.loading then none else some cfg.lossTime, offers := (s.link l).offers }

/-- The answer of READ_STATUS (R162). In LOADING unsaved changes is absent with the revision and the image state it is
computed from: DESIGN CHOICE (log 8). -/
def State.statusFor (s : State) (x : Link) : StatusData :=
  let settled {α : Type} (v : α) : Option α := if s.loading then none else some v
  { running := !s.loading, cause := s.supply.cause, clock := s.clock.seconds, clockSet := s.clock.isSet,
    revision := settled s.manager.revision, image := settled s.manager.image, unsaved := settled s.unsavedChanges,
    lock := s.manager.lock, linkA := s.linkStatus .a, linkB := s.linkStatus .b, overrun := (s.link x).overrun,
    callsInUse := s.callsInOrder.length, waitingCount := s.waitingCount, queueLoad := s.queueLoad,
    pendingLength := s.pendingList.length, defaultHome := settled s.tables.defaults.home,
    defaultOverflow := settled s.tables.defaults.overflow, defaultWeight := settled s.tables.defaults.weight,
    segments := allSegs.map (fun g => ⟨(s.line g).feed, (s.path g).holder⟩) }

/-- READ_STATUS: accepted in LOADING too; the asking link's overrun flag clears after the answer (R162). -/
def readStatus (x : Link) (tag : Tag) (s : State) : State :=
  runCommand x tag .readStatus (fun _ => none) (fun s => .status (s.statusFor x))
    (modLink x (fun r => { r with overrun := false })) s

/-- Refused BUSY during LOADING, and nothing else. -/
def busyCheck (s : State) : Option RefusalCode := firstRefusal [(s.loading, .busy)]

/-- SET_TIME (R163); the mark of the next whole second stays (log 23). -/
def setTime (x : Link) (tag : Tag) (seconds : Seconds) (s : State) : State :=
  runCommand x tag .setTime busyCheck (fun _ => .empty)
    (fun s => { s with clock := { s.clock with seconds := seconds, isSet := true } }) s

/-! ### Posts (R22, R43, R167) -/

/-- The effect of a command on the post it names. -/
def onPost (p : PostArg) (effect : PostId → State → State) (s : State) : State :=
  match postOf p with
  | none => s
  | some q => effect q s

/-- The answer of READ_POST (R22). -/
def State.postData (s : State) (p : PostId) : PostData :=
  { config := s.postConfig p, post := s.post p, probable := s.probablePost p,
    place := (s.pendingList.findIdx? (fun e => e.post = p)).map (· + 1) }

/-- READ_POST (R22). -/
def readPost (x : Link) (tag : Tag) (p : PostArg) (s : State) : State :=
  runCommand x tag .readPost (fun s => firstRefusal [((postOf p).isNone, .malformed), (s.loading, .busy)])
    (fun s => ((postOf p).map (fun q => Reply.post (s.postData q))).getD .empty) id s

/-- UNMUTE_POST's checks (R43). -/
def unmuteChecks (p : PostArg) (s : State) : Option RefusalCode :=
  match postOf p with
  | none => some .malformed
  | some q =>
    firstRefusal
      [(s.loading, .busy),
       ((s.line q.seg).feed = .isolating, .busy),
       ((s.post q).presence ≠ .muted, .badState)]

/-- UNMUTE_POST (R43). -/
def unmutePost (x : Link) (tag : Tag) (p : PostArg) (s : State) : State :=
  runCommand x tag .unmutePost (unmuteChecks p) (fun _ => .empty) (onPost p unmuteEffect) s

/-- The highest chainage, 1,048,575 m (R68). -/
def maxChainage : Nat := 1048575

/-- The configured part a WRITE_POST would store, where its fields lie in their ranges; a stored serial of 0 is
stored absent (R167). -/
def storedPost (f : PostFields) : Option PostConfig :=
  match postCarriageway f.carriageway, codedValue f.side, codedValue f.road with
  | some carriageway, some side, some road =>
    if f.chainage ≤ maxChainage && f.cable.all (· ≤ 65535) then
      some { chainage := f.chainage, carriageway := carriageway, side := side, road := road, cable := f.cable,
             serial := f.serial.filter (· ≠ 0#32) }
    else none
  | none, _, _ => none
  | some _, none, _ => none
  | some _, some _, none => none

/-- Whether a write would change what the structure lock protects in a post (R167, R170). -/
def structureChanges (old : Option PostConfig) (new : PostConfig) : Bool :=
  match old with
  | none => true
  | some c => { c with serial := none } ≠ { new with serial := none }

/-- WRITE_POST's checks (R167). -/
def writePostChecks (expected : Option Counter) (p : PostArg) (f : PostFields) (s : State) : Option RefusalCode :=
  if s.loading then some .busy
  else
    match postOf p, storedPost f with
    | some q, some new =>
      firstRefusal
        [(s.stale expected, .stale), (s.manager.lock && structureChanges (s.postConfig q) new, .locked)]
    | none, _ => some .malformed
    | some _, none => some .malformed

/-- A write of a post's configured part: stored, the location part reset, one change counted (R61, R167). -/
def storePost (x : Link) (c : Option PostConfig) (p : PostId) (s : State) : State :=
  countChange (.post p) (.link x) (resetLocation p (setPostConfig p c s))

/-- WRITE_POST (R167). -/
def writePost (x : Link) (tag : Tag) (expected : Option Counter) (p : PostArg) (f : PostFields) (s : State) : State :=
  runCommand x tag .writePost (writePostChecks expected p f) (fun _ => .empty) (onPost p (storePost x (storedPost f))) s

/-- CLEAR_POST's checks (R167). -/
def clearPostChecks (expected : Option Counter) (p : PostArg) (s : State) : Option RefusalCode :=
  firstRefusal
    [(s.loading, .busy), ((postOf p).isNone, .malformed), (s.stale expected, .stale), (s.manager.lock, .locked)]

/-- CLEAR_POST (R167). -/
def clearPost (x : Link) (tag : Tag) (expected : Option Counter) (p : PostArg) (s : State) : State :=
  runCommand x tag .clearPost (clearPostChecks expected p) (fun _ => .empty) (onPost p (storePost x none)) s

/-! ### Segments (R13, R19, R168) -/

/-- The effect of a command on the segment it names. -/
def onSegment (g : Nat) (effect : SegId → State → State) (s : State) : State :=
  match segmentOf g with
  | none => s
  | some g => effect g s

/-- The answer of READ_SEGMENT, the feed voltage held at 63 (R19). -/
def State.segmentData (s : State) (g : SegId) : SegmentData :=
  { config := s.segmentConfig g, feed := (s.line g).feed, trips := (s.line g).trips, tempo := (s.poll g).tempo,
    startUp := (s.line g).startUp, holder := (s.path g).holder, lastTest := (s.path g).lastTest,
    isolationPosition := (s.poll g).isolationPosition, volts := holdAt 63 (s.line g).volts, overLimit := (s.line g).overLimit }

/-- READ_SEGMENT (R19). -/
def readSegment (x : Link) (tag : Tag) (g : Nat) (s : State) : State :=
  runCommand x tag .readSegment (fun s => firstRefusal [((segmentOf g).isNone, .malformed), (s.loading, .busy)])
    (fun s => ((segmentOf g).map (fun g => Reply.segment (s.segmentData g))).getD .empty) id s

/-- The fields a WRITE_SEGMENT stores, each clamped: the thresholds turn-on first (R3), T, K and the tolerance
(R62), the ring fields with the on-time held at the period (R132), the test threshold. -/
def storedSegment (f : SegmentFields) (enabled : Bool) : SegmentConfig :=
  let turnOn := holdIn 20 60 f.turnOn
  let period := holdIn 1 40 f.ringPeriod
  { feedEnabled := enabled, turnOn := turnOn, turnOff := holdIn 18 (turnOn - 2) f.turnOff,
    turnaround := holdIn 0 4095 f.turnaround, cableConstant := holdIn 100 1500 f.cableConstant,
    tolerance := holdIn 0 2000 f.tolerance, testThreshold := holdIn 0 255 f.testThreshold, ringPeriod := period,
    ringOnTime := holdIn 0 period f.ringOnTime, ringTimeout := holdIn 10 300 f.ringTimeout }

/-- Whether two segment records differ in T or K (R62, R168). -/
def scaleChanges (old new : SegmentConfig) : Bool :=
  old.turnaround ≠ new.turnaround || old.cableConstant ≠ new.cableConstant

/-- WRITE_SEGMENT's checks (R168). -/
def writeSegmentChecks (expected : Option Counter) (g : Nat) (f : SegmentFields) (s : State) : Option RefusalCode :=
  if s.loading then some .busy
  else
    match segmentOf g, codedValue f.feedEnabled with
    | some g, some enabled =>
      firstRefusal
        [(s.stale expected, .stale),
         (s.manager.lock && scaleChanges (s.segmentConfig g) (storedSegment f enabled), .locked)]
    | none, _ => some .malformed
    | some _, none => some .malformed

/-- Store a segment's configured fields. -/
def setSegmentConfig (g : SegId) (c : SegmentConfig) (s : State) : State :=
  { s with tables := { s.tables with segments := s.tables.segments.set g c } }

/-- The effect of a WRITE_SEGMENT: a changed T or K clears every F, the thresholds act at once, and the change is
counted (R4, R62, R168). -/
def storeSegment (x : Link) (c : SegmentConfig) (g : SegId) (s : State) : State :=
  let old := s.segmentConfig g
  let s := setSegmentConfig g c s
  let s := if scaleChanges old c then modPostsOf g (fun r => { r with filtered := none }) s else s
  countChange (.segment g) (.link x) (thresholdCrossings g old c s)

/-- WRITE_SEGMENT (R168). -/
def writeSegment (x : Link) (tag : Tag) (expected : Option Counter) (g : Nat) (f : SegmentFields) (s : State) : State :=
  match f.feedEnabled with
  | .named enabled =>
    runCommand x tag .writeSegment (writeSegmentChecks expected g f) (fun _ => .segmentStored (storedSegment f enabled))
      (onSegment g (storeSegment x (storedSegment f enabled))) s
  | .other _ => runCommand x tag .writeSegment (writeSegmentChecks expected g f) (fun _ => .empty) id s

/-- FEED's checks, its mode being one of the three, with the states that refuse it (R13). -/
def feedChecks (g : Nat) (refused : FeedState → Bool) (s : State) : Option RefusalCode :=
  match segmentOf g with
  | none => some .malformed
  | some g => firstRefusal [(s.loading, .busy), (refused (s.line g).feed, .badState)]

/-- FEED, mode OFF (R13). -/
def feedOff (x : Link) (tag : Tag) (g : Nat) (s : State) : State :=
  runCommand x tag .feed (feedChecks g (fun f => f = .locked)) (fun _ => .empty) (onSegment g (feedOffEffect x)) s

/-- FEED, mode ON (R13). -/
def feedOn (x : Link) (tag : Tag) (g : Nat) (s : State) : State :=
  runCommand x tag .feed (feedChecks g (fun f => f = .locked)) (fun _ => .empty) (onSegment g (feedOnEffect x)) s

/-- FEED, mode RE-ENABLE (R12, R13). -/
def feedReEnable (x : Link) (tag : Tag) (g : Nat) (s : State) : State :=
  runCommand x tag .feed (feedChecks g (fun f => f ≠ .locked)) (fun _ => .empty)
    (onSegment g (feedReEnableEffect x)) s

/-! ### Routing windows (R110, R111) -/

/-- READ_WINDOW, with the window's block as its first and last chainage (R111). -/
def readWindow (x : Link) (tag : Tag) (w : Nat) (s : State) : State :=
  runCommand x tag .readWindow (fun s => firstRefusal [((zeroBased 8 w).isNone, .malformed), (s.loading, .busy)])
    (fun s =>
      match zeroBased 8 w with
      | none => .empty
      | some n =>
        let v := s.tables.windows[n]
        let first := v.base / v.size * v.size
        .window v first (first + v.size - 1)) id s

/-- The window a WRITE_WINDOW stores, where its fields lie in their ranges: the base rounded down to a multiple of
the size, the overflow time held at 5 to 120 s (R110). -/
def storedWindow (f : WindowFields) : Option Window :=
  match zeroBased 8 f.sizeCode, codedValue f.carriageway, codedValue f.home with
  | some code, some carriageway, some home =>
    if f.base ≤ maxChainage && f.label ≤ 255 then
      let size := 2 ^ (10 + code.val)
      some { enabled := f.enabled, base := f.base / size * size, sizeCode := code, carriageway := carriageway,
             home := home, overflow := holdIn 5 120 f.overflow, classMask := f.classMask, label := f.label }
    else none
  | none, _, _ => none
  | some _, none, _ => none
  | some _, some _, none => none

/-- Whether a write repeats the window it names exactly as stored, its base and overflow time as sent included: the one
case that R170 takes out of R110's LOCKED (log 28). -/
def repeatsWindow (w : Nat) (f : WindowFields) (s : State) : Bool :=
  match zeroBased 8 w, storedWindow f with
  | some n, some v => s.tables.windows[n] = v && f.base = v.base && f.overflow = v.overflow
  | none, _ => false
  | some _, none => false

/-- WRITE_WINDOW's checks (R110); under the structure lock only one that repeats its window exactly as stored is accepted:
DEDUCED (R170, log 28). -/
def writeWindowChecks (expected : Option Counter) (w : Nat) (f : WindowFields) (s : State) : Option RefusalCode :=
  firstRefusal
    [(s.loading, .busy), ((zeroBased 8 w).isNone || (storedWindow f).isNone, .malformed), (s.stale expected, .stale),
     (s.manager.lock && !repeatsWindow w f s, .locked)]

/-- The effect of a WRITE_WINDOW (R110). -/
def storeWindow (x : Link) (w : WindowNo) (v : Window) (s : State) : State :=
  countChange (.window w) (.link x) { s with tables := { s.tables with windows := s.tables.windows.set w v } }

/-- WRITE_WINDOW (R110). -/
def writeWindow (x : Link) (tag : Tag) (expected : Option Counter) (w : Nat) (f : WindowFields) (s : State) : State :=
  runCommand x tag .writeWindow (writeWindowChecks expected w f)
    (fun _ => ((storedWindow f).map Reply.windowStored).getD .empty)
    (fun s =>
      match zeroBased 8 w, storedWindow f with
      | some n, some v => storeWindow x n v s
      | none, _ => s
      | some _, none => s) s

/-! ### Classifier entries and defaults (R53, R54, R169) -/

/-- READ_CLASS: an entry, or with DEFAULT (8) the default class weight (R54). -/
def readClass (x : Link) (tag : Tag) (e : Nat) (s : State) : State :=
  runCommand x tag .readClass (fun s => firstRefusal [(!(e ≤ 8), .malformed), (s.loading, .busy)])
    (fun s =>
      match zeroBased 8 e with
      | some n => .classEntry s.tables.classes[n]
      | none => .defaultWeight s.tables.defaults.weight) id s

/-- The entry a WRITE_CLASS stores, where its fields lie in their ranges: the weight clamped to 0 to 200 (R53). -/
def storedClass (f : ClassFields) : Option ClassEntry :=
  match codedValue f.kind with
  | none => none
  | some kind =>
    if f.offset ≤ 23 then
      some { enabled := f.enabled, kind := kind, offset := f.offset, mask := f.mask, crc := f.crc, chain := f.chain,
             inverse := f.inverse, reports := f.reports, weight := holdIn 0 200 f.weight }
    else none

/-- WRITE_CLASS's checks (R53). -/
def writeClassChecks (expected : Option Counter) (e : Nat) (f : ClassFields) (s : State) : Option RefusalCode :=
  firstRefusal
    [((zeroBased 8 e).isNone || (storedClass f).isNone, .malformed), (s.loading, .busy), (s.stale expected, .stale)]

/-- The effect of a WRITE_CLASS (R53). -/
def storeClass (x : Link) (e : EntryNo) (v : ClassEntry) (s : State) : State :=
  countChange (.cls e) (.link x) { s with tables := { s.tables with classes := s.tables.classes.set e v } }

/-- WRITE_CLASS (R53). -/
def writeClass (x : Link) (tag : Tag) (expected : Option Counter) (e : Nat) (f : ClassFields) (s : State) : State :=
  runCommand x tag .writeClass (writeClassChecks expected e f)
    (fun _ => ((storedClass f).map Reply.classStored).getD .empty)
    (fun s =>
      match zeroBased 8 e, storedClass f with
      | some n, some v => storeClass x n v s
      | none, _ => s
      | some _, none => s) s

/-- The defaults a WRITE_DEFAULTS stores: weight held at 0 to 200, overflow time at 5 to 120 s (R169). -/
def storedDefaults (home : Link) (weight overflow : Nat) : Defaults :=
  { home := home, weight := holdIn 0 200 weight, overflow := holdIn 5 120 overflow }

/-- WRITE_DEFAULTS' checks (R169). -/
def writeDefaultsChecks (expected : Option Counter) (home : Coded Link) (s : State) : Option RefusalCode :=
  firstRefusal [(s.loading, .busy), ((codedValue home).isNone, .malformed), (s.stale expected, .stale)]

/-- WRITE_DEFAULTS (R169). -/
def writeDefaults (x : Link) (tag : Tag) (expected : Option Counter) (home : Coded Link) (weight overflow : Nat)
    (s : State) : State :=
  match home with
  | .named h =>
    runCommand x tag .writeDefaults (writeDefaultsChecks expected home)
      (fun _ => .defaultsStored (storedDefaults h weight overflow))
      (fun s => countChange .defaults (.link x)
        { s with tables := { s.tables with defaults := storedDefaults h weight overflow } }) s
  | .other _ => runCommand x tag .writeDefaults (writeDefaultsChecks expected home) (fun _ => .empty) id s

/-! ### Link parameters (R109, R164) -/

/-- The parameters a WRITE_LINK stores: depth held at 1 to 8, link-loss time at 1 to 30 s (R164). -/
def storedLink (depth lossTime : Nat) : LinkConfig := { depth := holdIn 1 8 depth, lossTime := holdIn 1 30 lossTime }

/-- A new link-loss time on the named link: an UP link's timer is measured from its last valid message, and a
moment already passed takes the link DOWN (R164). -/
def applyLossTime (l : Link) (lossTime : Nat) (s : State) : State :=
  match (s.link l).lossTimer with
  | none => s
  | some t =>
    let due := t.since + ms lossTime
    if (s.link l).up && due < s.timebase then linkGoesDown l s
    else modLink l (fun r => { r with lossTimer := some ⟨t.since, due⟩ }) s

/-- The effect of a WRITE_LINK: stored, the depth acts in the Offer Engine, the time on the timer, and the change is
counted last (R109, R164, R166). -/
def storeLink (x l : Link) (c : LinkConfig) (s : State) : State :=
  let s := { s with tables := { s.tables with links := s.tables.links.set l c } }
  let s := fillBoth (withdrawToDepth l c.depth s)
  countChange (.link l) (.link x) (applyLossTime l c.lossTime s)

/-- WRITE_LINK's checks (R164). -/
def writeLinkChecks (expected : Option Counter) (named : Coded Link) (s : State) : Option RefusalCode :=
  firstRefusal [((codedValue named).isNone, .malformed), (s.loading, .busy), (s.stale expected, .stale)]

/-- WRITE_LINK (R164). -/
def writeLink (x : Link) (tag : Tag) (expected : Option Counter) (named : Coded Link) (depth lossTime : Nat)
    (s : State) : State :=
  match named with
  | .named l =>
    runCommand x tag .writeLink (writeLinkChecks expected named) (fun _ => .linkStored (storedLink depth lossTime))
      (storeLink x l (storedLink depth lossTime)) s
  | .other _ => runCommand x tag .writeLink (writeLinkChecks expected named) (fun _ => .empty) id s

/-! ### The structure lock and SAVE_IMAGE (R170, R171) -/

/-- LOCK_STRUCTURE (R170). -/
def lockStructure (x : Link) (tag : Tag) (s : State) : State :=
  runCommand x tag .lockStructure busyCheck (fun _ => .empty)
    (fun s => { s with manager := { s.manager with lock := true } }) s

/-- SAVE_IMAGE's checks (R171). -/
def saveImageChecks (s : State) : Option RefusalCode :=
  firstRefusal [(s.loading, .busy), (s.manager.image = .saving, .busy)]

/-- The effect of a SAVE_IMAGE: the snapshot is taken, the image state is SAVING, and the marker in the memory is
erased first (R171, R178). -/
def saveImageEffect (s : State) : State :=
  { s with
    manager := { s.manager with image := .saving, save := some ⟨s.tables, s.manager.revision, .writing⟩ }
    memory := { s.memory with marker := 0xFFFFFFFF#32 } }

/-- SAVE_IMAGE (R171). -/
def saveImage (x : Link) (tag : Tag) (s : State) : State :=
  runCommand x tag .saveImage saveImageChecks (fun _ => .empty) saveImageEffect s

/-! ### A block that names no command (R158) -/

/-- UNKNOWN_COMMAND: refused MALFORMED, before any BUSY (R158, log 17). -/
def unknownCommand (x : Link) (tag : Tag) (s : State) : State := refuseCommand x tag .unknown .malformed s

/-! ### The meanings of the rows -/

/-- The row READ_STATUS (R162). -/
def execReadStatus (l : Link) (tag : Tag) (s : State) : Host.Outcome State Fault Refusal :=
  .next (readStatus l tag s)

/-- The row SET_TIME (R163). -/
def execSetTime (l : Link) (tag : Tag) (seconds : Seconds) (s : State) : Host.Outcome State Fault Refusal :=
  .next (setTime l tag seconds s)

/-- The row READ_POST (R22). -/
def execReadPost (l : Link) (tag : Tag) (post : PostArg) (s : State) : Host.Outcome State Fault Refusal :=
  .next (readPost l tag post s)

/-- The row WRITE_POST (R167). -/
def execWritePost (l : Link) (tag : Tag) (expected : Option Counter) (post : PostArg) (fields : PostFields) (s : State) : Host.Outcome State Fault Refusal :=
  .next (writePost l tag expected post fields s)

/-- The row CLEAR_POST (R167). -/
def execClearPost (l : Link) (tag : Tag) (expected : Option Counter) (post : PostArg) (s : State) : Host.Outcome State Fault Refusal :=
  .next (clearPost l tag expected post s)

/-- The row READ_SEGMENT (R19). -/
def execReadSegment (l : Link) (tag : Tag) (segment : Nat) (s : State) : Host.Outcome State Fault Refusal :=
  .next (readSegment l tag segment s)

/-- The row WRITE_SEGMENT (R168). -/
def execWriteSegment (l : Link) (tag : Tag) (expected : Option Counter) (segment : Nat) (fields : SegmentFields) (s : State) : Host.Outcome State Fault Refusal :=
  .next (writeSegment l tag expected segment fields s)

/-- The row FEED_OFF (R13). -/
def execFeedOff (l : Link) (tag : Tag) (segment : Nat) (s : State) : Host.Outcome State Fault Refusal :=
  .next (feedOff l tag segment s)

/-- The row FEED_ON (R13). -/
def execFeedOn (l : Link) (tag : Tag) (segment : Nat) (s : State) : Host.Outcome State Fault Refusal :=
  .next (feedOn l tag segment s)

/-- The row FEED_RE_ENABLE (R12). -/
def execFeedReEnable (l : Link) (tag : Tag) (segment : Nat) (s : State) : Host.Outcome State Fault Refusal :=
  .next (feedReEnable l tag segment s)

/-- The row UNMUTE_POST (R43). -/
def execUnmutePost (l : Link) (tag : Tag) (post : PostArg) (s : State) : Host.Outcome State Fault Refusal :=
  .next (unmutePost l tag post s)

/-- The row READ_WINDOW (R111). -/
def execReadWindow (l : Link) (tag : Tag) (window : Nat) (s : State) : Host.Outcome State Fault Refusal :=
  .next (readWindow l tag window s)

/-- The row WRITE_WINDOW (R110). -/
def execWriteWindow (l : Link) (tag : Tag) (expected : Option Counter) (window : Nat) (fields : WindowFields) (s : State) : Host.Outcome State Fault Refusal :=
  .next (writeWindow l tag expected window fields s)

/-- The row READ_CLASS (R54). -/
def execReadClass (l : Link) (tag : Tag) (entry : Nat) (s : State) : Host.Outcome State Fault Refusal :=
  .next (readClass l tag entry s)

/-- The row WRITE_CLASS (R53). -/
def execWriteClass (l : Link) (tag : Tag) (expected : Option Counter) (entry : Nat) (fields : ClassFields) (s : State) : Host.Outcome State Fault Refusal :=
  .next (writeClass l tag expected entry fields s)

/-- The row WRITE_DEFAULTS (R169). -/
def execWriteDefaults (l : Link) (tag : Tag) (expected : Option Counter) (home : Coded Link) (weight overflow : Nat) (s : State) : Host.Outcome State Fault Refusal :=
  .next (writeDefaults l tag expected home weight overflow s)

/-- The row WRITE_LINK (R164). -/
def execWriteLink (l : Link) (tag : Tag) (expected : Option Counter) (named : Coded Link) (depth lossTime : Nat) (s : State) : Host.Outcome State Fault Refusal :=
  .next (writeLink l tag expected named depth lossTime s)

/-- The row LOCK_STRUCTURE (R170). -/
def execLockStructure (l : Link) (tag : Tag) (s : State) : Host.Outcome State Fault Refusal :=
  .next (lockStructure l tag s)

/-- The row SAVE_IMAGE (R171). -/
def execSaveImage (l : Link) (tag : Tag) (s : State) : Host.Outcome State Fault Refusal :=
  .next (saveImage l tag s)

/-- The row UNKNOWN_COMMAND (R158). -/
def execUnknownCommand (l : Link) (tag : Tag) (s : State) : Host.Outcome State Fault Refusal :=
  .next (unknownCommand l tag s)

end Sys2Proof.Machine
end

