-- ==== Sys2Proof/Machine/Receive.lean ====
section
/-! DEFINITION. Receiving message blocks (10, 12): the receive assembly with its hunting (R156), the reading of a
command's body (R176), and the taking of a valid block (R158). -/

namespace Sys2Proof.Machine

open Sys2Proof

/-! ### Reading the fields of a body (R176) -/

/-- A number of one, two or three bytes, with the bytes after it. -/
def take8 : List Byte → Option (Nat × List Byte)
  | b :: r => some (b.toNat, r)
  | _ => none

def take16 : List Byte → Option (BitVec 16 × List Byte)
  | b1 :: b0 :: r => some (word16 b1 b0, r)
  | _ => none

def take24 : List Byte → Option (BitVec 24 × List Byte)
  | b2 :: b1 :: b0 :: r => some (b2 ++ b1 ++ b0, r)
  | _ => none

def take32 : List Byte → Option (BitVec 32 × List Byte)
  | b3 :: b2 :: b1 :: b0 :: r => some (word32 b3 b2 b1 b0, r)
  | _ => none

/-- A yes or no field: any byte but 00 or 01 is malformed (R176). -/
def takeFlag : List Byte → Option (Bool × List Byte)
  | b :: r => if b = 0x00#8 then some (false, r) else if b = 0x01#8 then some (true, r) else none
  | _ => none

/-- An optional field behind its presence byte (R176). -/
def takeOptional {α : Type} (f : List Byte → Option (α × List Byte)) (bytes : List Byte) :
    Option (Option α × List Byte) := do
  let (present, r) ← takeFlag bytes
  if present then
    let (x, r) ← f r
    some (some x, r)
  else some (none, r)

/-- A post: segment, then address. -/
def takePost (bytes : List Byte) : Option (PostArg × List Byte) := do
  let (g, r) ← take8 bytes
  let (a, r) ← take8 r
  some (⟨g, a⟩, r)

/-- A call reference: call number, then sequence. -/
def takeRef (bytes : List Byte) : Option (CallArg × List Byte) := do
  let (n, r) ← take8 bytes
  let (q, r) ← take16 r
  some (⟨n, q⟩, r)

/-- An enumerated field: a named value, or the code of none (12.4). -/
def takeCoded {α : Type} (named : Nat → Option α) : List Byte → Option (Coded α × List Byte)
  | b :: r => some (((named b.toNat).map Coded.named).getD (.other b), r)
  | _ => none

/-- A class mask: bits 9 to 15 set are malformed (R176). -/
def takeClassMask (bytes : List Byte) : Option (BitVec 9 × List Byte) := do
  let (w, r) ← take16 bytes
  if w.toNat < 512 then some (w.setWidth 9, r) else none

/-- The whole body was read. -/
def finish {α : Type} (x : α) (r : List Byte) : Option α := if r.isEmpty then some x else none

/-! ### Enumeration codes (12.4) -/

def linkOf : Nat → Option Link
  | 1 => some .a
  | 2 => some .b
  | _ => none

def carriagewayOf : Nat → Option CarriagewayCode
  | 1 => some .one
  | 2 => some .two
  | 3 => some .both
  | _ => none

def sideOf : Nat → Option Side
  | 1 => some .left
  | 2 => some .right
  | 3 => some .median
  | _ => none

def roadOf : Nat → Option RoadStructure
  | 1 => some .openRoad
  | 2 => some .tunnel
  | 3 => some .viaduct
  | 4 => some .slip
  | _ => none

def entryKindOf : Nat → Option EntryKind
  | 0 => some .call
  | 1 => some .alarm
  | _ => none

def yesNoOf : Nat → Option Bool
  | 0 => some false
  | 1 => some true
  | _ => none

/-- The command of a block's type, 01 to 20 hex (12.1). -/
def commandOf (type : Byte) : CommandType :=
  match type.toNat with
  | 0x01 => .readStatus
  | 0x02 => .setTime
  | 0x03 => .listCalls
  | 0x04 => .readCall
  | 0x05 => .listAbandoned
  | 0x06 => .listPending
  | 0x07 => .answer
  | 0x08 => .decline
  | 0x09 => .hold
  | 0x0A => .retrieve
  | 0x0B => .release
  | 0x0C => .join
  | 0x0D => .leave
  | 0x0E => .callPost
  | 0x0F => .testPost
  | 0x10 => .handover
  | 0x11 => .resume
  | 0x12 => .readPost
  | 0x13 => .writePost
  | 0x14 => .clearPost
  | 0x15 => .readSegment
  | 0x16 => .writeSegment
  | 0x17 => .feed
  | 0x18 => .unmutePost
  | 0x19 => .readWindow
  | 0x1A => .writeWindow
  | 0x1B => .readClass
  | 0x1C => .writeClass
  | 0x1D => .writeDefaults
  | 0x1E => .writeLink
  | 0x1F => .lockStructure
  | 0x20 => .saveImage
  | _ => .unknown

/-! ### Reading a command (R158, R176) -/

/-- What a block asks for: a row of the table, a refusal for its shape, or a mode its command does not take. -/
inductive Request where
  | command (i : Instr)
  | malformed
  | badHandoverMode
  | badFeedMode
  deriving DecidableEq, Repr

/-- Read WRITE_POST's fields after the expected revision and the post (R167). -/
def takePostFields (bytes : List Byte) : Option (PostFields × List Byte) := do
  let (chainage, r) ← take24 bytes
  let (carriageway, r) ← takeCoded carriagewayOf r
  let (side, r) ← takeCoded sideOf r
  let (road, r) ← takeCoded roadOf r
  let (cable, r) ← takeOptional take16 r
  let (serial, r) ← takeOptional take32 r
  some ({ chainage := chainage.toNat, carriageway := carriageway, side := side, road := road,
          cable := cable.map (·.toNat), serial := serial }, r)

/-- Read WRITE_SEGMENT's fields after the segment (R168). -/
def takeSegmentFields (bytes : List Byte) : Option (SegmentFields × List Byte) := do
  let (enabled, r) ← takeCoded yesNoOf bytes
  let (turnOn, r) ← take8 r
  let (turnOff, r) ← take8 r
  let (t, r) ← take16 r
  let (k, r) ← take16 r
  let (tolerance, r) ← take16 r
  let (threshold, r) ← take8 r
  let (period, r) ← take8 r
  let (onTime, r) ← take8 r
  let (timeout, r) ← take16 r
  some ({ feedEnabled := enabled, turnOn := turnOn, turnOff := turnOff, turnaround := t.toNat, cableConstant := k.toNat,
          tolerance := tolerance.toNat, testThreshold := threshold, ringPeriod := period, ringOnTime := onTime,
          ringTimeout := timeout.toNat }, r)

/-- Read WRITE_WINDOW's fields after the window (R110). -/
def takeWindowFields (bytes : List Byte) : Option (WindowFields × List Byte) := do
  let (enabled, r) ← takeFlag bytes
  let (base, r) ← take24 r
  let (size, r) ← take8 r
  let (carriageway, r) ← takeCoded carriagewayOf r
  let (home, r) ← takeCoded linkOf r
  let (overflow, r) ← take8 r
  let (mask, r) ← takeClassMask r
  let (label, r) ← take8 r
  some ({ enabled := enabled, base := base.toNat, sizeCode := size, carriageway := carriageway, home := home,
          overflow := overflow, classMask := mask, label := label }, r)

/-- Read WRITE_CLASS's fields after the entry (R53). -/
def takeClassFields (bytes : List Byte) : Option (ClassFields × List Byte) := do
  let (enabled, r) ← takeFlag bytes
  let (kind, r) ← takeCoded entryKindOf r
  let (offset, r) ← take8 r
  let (mask, r) ← take24 r
  let (crc, r) ← take16 r
  let (chain, r) ← takeFlag r
  let (inverse, r) ← takeFlag r
  let (reports, r) ← takeFlag r
  let (weight, r) ← take8 r
  some ({ enabled := enabled, kind := kind, offset := offset, mask := mask, crc := crc, chain := chain,
          inverse := inverse, reports := reports, weight := weight }, r)

/-- A body that holds nothing. -/
def bareBody (i : Instr) (bytes : List Byte) : Option Request := finish (.command i) bytes

/-- A body that holds a call reference alone. -/
def refBody (f : CallArg → Instr) (bytes : List Byte) : Option Request := do
  let (c, r) ← takeRef bytes
  finish (.command (f c)) r

/-- A body that holds a call reference and a channel. -/
def refChannelBody (f : CallArg → Nat → Instr) (bytes : List Byte) : Option Request := do
  let (c, r) ← takeRef bytes
  let (k, r) ← take8 r
  finish (.command (f c k)) r

/-- A body that holds a post alone. -/
def postBody (f : PostArg → Instr) (bytes : List Byte) : Option Request := do
  let (p, r) ← takePost bytes
  finish (.command (f p)) r

/-- A body that holds one number alone. -/
def numberBody (f : Nat → Instr) (bytes : List Byte) : Option Request := do
  let (n, r) ← take8 bytes
  finish (.command (f n)) r

/-- HANDOVER's body: its mode (R143). -/
def handoverBody (l : Link) (tag : Tag) (bytes : List Byte) : Option Request := do
  let (m, r) ← take8 bytes
  finish (if m = 0 then .command (.handoverFinish l tag) else if m = 1 then .command (.handoverImmediate l tag)
          else .badHandoverMode) r

/-- FEED's body: segment and mode (R13). -/
def feedBody (l : Link) (tag : Tag) (bytes : List Byte) : Option Request := do
  let (g, r) ← take8 bytes
  let (m, r) ← take8 r
  finish (if m = 0 then .command (.feedOff l tag g) else if m = 1 then .command (.feedOn l tag g)
          else if m = 2 then .command (.feedReEnable l tag g) else .badFeedMode) r

/-- CALL_POST's body: post, channel, and the priority as an optional field (R129). -/
def callPostBody (l : Link) (tag : Tag) (bytes : List Byte) : Option Request := do
  let (p, r) ← takePost bytes
  let (k, r) ← take8 r
  let (priority, r) ← takeOptional take8 r
  finish (.command (.callPost l tag p k priority)) r

/-- The write commands' bodies, the expected revision first (R166, R176). -/
def writeBody (f : Option Counter → List Byte → Option (Instr × List Byte)) (bytes : List Byte) : Option Request := do
  let (expected, r) ← takeOptional take16 bytes
  let (i, r) ← f expected r
  finish (.command i) r

/-- Read a command's body by its type; none where the body does not hold its fields (R158, R176). -/
def readBody (l : Link) (tag : Tag) (type : CommandType) (bytes : List Byte) : Option Request :=
  match type with
  | .readStatus => bareBody (.readStatus l tag) bytes
  | .setTime => do
    let (t, r) ← take32 bytes
    finish (.command (.setTime l tag t)) r
  | .listCalls => bareBody (.listCalls l tag) bytes
  | .readCall => refBody (.readCall l tag) bytes
  | .listAbandoned => bareBody (.listAbandoned l tag) bytes
  | .listPending => bareBody (.listPending l tag) bytes
  | .answer => refChannelBody (.answer l tag) bytes
  | .decline => refBody (.decline l tag) bytes
  | .hold => refBody (.hold l tag) bytes
  | .retrieve => refBody (.retrieve l tag) bytes
  | .release => refBody (.release l tag) bytes
  | .join => refChannelBody (.join l tag) bytes
  | .leave => refBody (.leave l tag) bytes
  | .callPost => callPostBody l tag bytes
  | .testPost => postBody (.testPost l tag) bytes
  | .handover => handoverBody l tag bytes
  | .resume => bareBody (.resume l tag) bytes
  | .readPost => postBody (.readPost l tag) bytes
  | .writePost => writeBody (fun expected r => do
      let (p, r) ← takePost r
      let (f, r) ← takePostFields r
      some (.writePost l tag expected p f, r)) bytes
  | .clearPost => writeBody (fun expected r => do
      let (p, r) ← takePost r
      some (.clearPost l tag expected p, r)) bytes
  | .readSegment => numberBody (.readSegment l tag) bytes
  | .writeSegment => writeBody (fun expected r => do
      let (g, r) ← take8 r
      let (f, r) ← takeSegmentFields r
      some (.writeSegment l tag expected g f, r)) bytes
  | .feed => feedBody l tag bytes
  | .unmutePost => postBody (.unmutePost l tag) bytes
  | .readWindow => numberBody (.readWindow l tag) bytes
  | .writeWindow => writeBody (fun expected r => do
      let (w, r) ← take8 r
      let (f, r) ← takeWindowFields r
      some (.writeWindow l tag expected w f, r)) bytes
  | .readClass => numberBody (.readClass l tag) bytes
  | .writeClass => writeBody (fun expected r => do
      let (e, r) ← take8 r
      let (f, r) ← takeClassFields r
      some (.writeClass l tag expected e f, r)) bytes
  | .writeDefaults => writeBody (fun expected r => do
      let (home, r) ← takeCoded linkOf r
      let (weight, r) ← take8 r
      let (overflow, r) ← take8 r
      some (.writeDefaults l tag expected home weight overflow, r)) bytes
  | .writeLink => writeBody (fun expected r => do
      let (named, r) ← takeCoded linkOf r
      let (depth, r) ← take8 r
      let (lossTime, r) ← take8 r
      some (.writeLink l tag expected named depth lossTime, r)) bytes
  | .lockStructure => bareBody (.lockStructure l tag) bytes
  | .saveImage => bareBody (.saveImage l tag) bytes
  | .unknown => some (.command (.unknownCommand l tag))

/-- What a valid block asks for (R158). -/
def readBlock (l : Link) (tag : Tag) (type : Byte) (body : List Byte) : Request :=
  (readBody l tag (commandOf type) body).getD .malformed

/-! ### Taking a block -/

/-- Take a command of the table; the rows that are not commands do not arrive in a block. -/
def takeCommand (i : Instr) (s : State) : State :=
  match i with
  | .readStatus l t => readStatus l t s
  | .setTime l t v => setTime l t v s
  | .listCalls l t => listCalls l t s
  | .readCall l t c => readCall l t c s
  | .listAbandoned l t => listAbandoned l t s
  | .listPending l t => listPending l t s
  | .answer l t c k => answer l t c k s
  | .decline l t c => decline l t c s
  | .hold l t c => hold l t c s
  | .retrieve l t c => retrieve l t c s
  | .release l t c => release l t c s
  | .join l t c k => join l t c k s
  | .leave l t c => leave l t c s
  | .callPost l t p k pr => callPost l t p k pr s
  | .testPost l t p => testPost l t p s
  | .handoverFinish l t => handoverFinish l t s
  | .handoverImmediate l t => handoverImmediate l t s
  | .resume l t => resume l t s
  | .readPost l t p => readPost l t p s
  | .writePost l t e p f => writePost l t e p f s
  | .clearPost l t e p => clearPost l t e p s
  | .readSegment l t g => readSegment l t g s
  | .writeSegment l t e g f => writeSegment l t e g f s
  | .feedOff l t g => feedOff l t g s
  | .feedOn l t g => feedOn l t g s
  | .feedReEnable l t g => feedReEnable l t g s
  | .unmutePost l t p => unmutePost l t p s
  | .readWindow l t w => readWindow l t w s
  | .writeWindow l t e w f => writeWindow l t e w f s
  | .readClass l t e => readClass l t e s
  | .writeClass l t x e f => writeClass l t x e f s
  | .writeDefaults l t e h w o => writeDefaults l t e h w o s
  | .writeLink l t e n d m => writeLink l t e n d m s
  | .lockStructure l t => lockStructure l t s
  | .saveImage l t => saveImage l t s
  | .unknownCommand l t => unknownCommand l t s
  | .badBlock _ _ | .linkFrame _ _ _ _ | .startedSent _ | .linkLossExpiry _ | .feedVoltageFall _ _ _
  | .feedVoltageAboveTurnOff _ _ _ | .feedVoltageAboveTurnOn _ _ _ | .overCurrent _ _ | .underVoltageFilterExpiry _
  | .rePowerTimerExpiry _ | .tripRetryExpiry _ | .startUpSwitchOn _ | .pollSlot _ _ _ | .report _ _ _
  | .responseWindowClose _ _ | .carrierStart _ | .attentionBurst _ | .babble _ | .isolationListenEnd _ _
  | .economyPassStart _ | .onBatteryDeassert | .ageingStep _ | .overflowTimerExpiry _ | .ringPeriodStart _
  | .ringOnTimeEnd _ | .ringDeadline _ | .testComparisonEnd _ _ | .imageWritten | .saveReadBackEnd _ | .imageLoadEnd _
  | .loadTimeout | .powerOn | .supplySenseLow | .supplySenseGood | .holdOffExpiry | .resetPinAssert | .resetPinRelease
  | .timeClockTick => s

/-- A valid block's three parts after its length. -/
structure RxBlock where
  tag : Tag
  type : Byte
  body : List Byte
  deriving DecidableEq, Repr

/-- Take a valid block of a link: its command, or its refusal for its shape or its mode, each in its rule's place
among the checks (R13, R143, R158, R159). -/
def takeBlock (l : Link) (b : RxBlock) (s : State) : State :=
  match readBlock l b.tag b.type b.body with
  | .command i => takeCommand i s
  | .malformed => refuseCommand l b.tag (commandOf b.type) .malformed s
  | .badHandoverMode =>
    runCommand l b.tag .handover (fun s => firstRefusal [(s.loading, .busy), (true, .malformed)]) (fun _ => .empty) id s
  | .badFeedMode => refuseCommand l b.tag .feed .malformed s

/-! ### The receive assembly (R156) -/

/-- Pass over bytes until a start marker (R156). -/
def hunt (bytes : List Byte) : List Byte := bytes.dropWhile (fun b => b ≠ startMarker)

/-- What the assembly makes of the bytes since a start marker: more bytes needed, a valid block with the bytes after
its CRC, or a block to discard (R156). -/
inductive Assembled where
  | incomplete
  | block (b : RxBlock) (rest : List Byte)
  | bad
  deriving DecidableEq, Repr

/-- Judge the bytes that follow a start marker (R156, 12.1). -/
def assemble (afterMarker : List Byte) : Assembled :=
  match afterMarker with
  | l1 :: l0 :: rest =>
    let length := (word16 l1 l0).toNat
    if length < 3 || 1024 < length then .bad
    else if rest.length < length + 2 then .incomplete
    else
      let content := rest.take length
      if bytes16 (crc16 (l1 :: l0 :: content)) = (rest.drop length).take 2 then
        match content with
        | t1 :: t0 :: type :: body => .block ⟨word16 t1 t0, type, body⟩ (rest.drop (length + 2))
        | _ => .bad
      else .bad
  | _ => .incomplete

/-- Scan bytes: the valid blocks found, and the bytes of the block in progress. After a discarded block hunting
resumes at the byte after its start marker (R156). `fuel` bounds the markers tried by the bytes there are. -/
def scan : Nat → List Byte → List RxBlock × List Byte
  | 0, bytes => ([], hunt bytes)
  | fuel + 1, bytes =>
    match hunt bytes with
    | [] => ([], [])
    | m :: after =>
      match assemble after with
      | .incomplete => ([], m :: after)
      | .bad => scan fuel after
      | .block b rest =>
        let (blocks, left) := scan fuel rest
        (b :: blocks, left)

/-- One message byte of a link reaches its assembly; a valid block it completes is taken (R156, R158, log 11). -/
def receiveByte (l : Link) (b : Byte) (s : State) : State :=
  let bytes := (s.link l).assembly ++ [b]
  let (blocks, left) := scan bytes.length bytes
  forEach blocks (takeBlock l) (modLink l (fun r => { r with assembly := left }) s)

/-- BAD_BLOCK: the bytes of a block reach the assembly one by one (R156, log 12). -/
def badBlock (l : Link) (bytes : List Byte) (s : State) : State :=
  outsideReset (fun s => forEach bytes (receiveByte l) s) s

/-! ### The meanings of the rows -/

/-- The row BAD_BLOCK (R156). -/
def execBadBlock (l : Link) (bytes : List Byte) (s : State) : Host.Outcome State Fault Refusal :=
  .next (badBlock l bytes s)

end Sys2Proof.Machine
end

