-- ==== Sys2Proof/Machine/Frames.lean ====
section
/-! DEFINITION. Link frames (07, 10): the mixing of speech sample by sample (R120), the tones (R121, R132), the
sending of the output queue byte by byte (R160), and one frame whole (R155). The waveforms of the tones and of
the test signal are free values of Config (log 13). -/

namespace Sys2Proof.Machine

open Sys2Proof

/-! ### Samples -/

/-- The sum of two samples, held at the limit of the sample range (R120). -/
def mix (x y : Sample) : Sample := BitVec.ofInt 16 (max (-32768) (min 32767 (x.toInt + y.toInt)))

/-- Samples in one second of a link's frames (R155). -/
def frameRate : Nat := 8000

/-- The waiting tone at a sample count: a 1 s burst repeated every 6 s (R121). -/
def waitingToneAt (t : Nat) : Sample := if t < frameRate then Config.waitingToneSample t else silence

/-- The waiting tone's pattern, in samples (R121). -/
def waitingPattern : Nat := 6 * frameRate

/-- The hold tone at a sample count: two bursts of 0.2 s, 0.2 s apart, repeated every 3 s (R121). -/
def holdToneAt (t : Nat) : Sample :=
  if t < 1600 || (3200 ≤ t && t < 4800) then Config.holdToneSample t else silence

/-- The hold tone's pattern, in samples (R121). -/
def holdPattern : Nat := 3 * frameRate

/-! ### What a channel and a post hear (R120) -/

/-- The last sample received on a call's channel of a link in its present use, silence where the call has none there.
The frames of the two links are not aligned: a frame mixes the sample that the other link's last frame brought, and its
own samples are taken in before its outgoing ones are made. DESIGN CHOICE (log 14). -/
def State.heardFrom (s : State) (l : Link) (k : Option ChanNo) : Sample :=
  match k with
  | none => silence
  | some k => (s.channel l k).heard

/-- What the other party's channel of a call gives a channel of role `role` on link `l` (R120). -/
def State.otherParty (s : State) (l : Link) (role : ChannelRole) (c : Call) : Sample :=
  match role with
  | .owner => s.heardFrom l.other c.joinedChannel
  | .joined => s.heardFrom l.other c.ownerChannel

/-- The post's speech, through the coupler of its segment while the call holds the path (R120). -/
def State.postSpeech (s : State) (c : Call) : Sample := if c.pathHeld then (s.path c.post.seg).speechIn else silence

/-- Ring-back on the owner channel of a RINGING call, from each period's start until the on-time has passed
(R120, R132). -/
def State.ringBack (s : State) (l : Link) (c : Call) : Sample :=
  if c.cadence.any (·.audible) then Config.ringBackSample (s.link l).frames else silence

/-- What a channel hears for its call's state (R120). -/
def State.callAudio (s : State) (l : Link) (role : ChannelRole) (tone : Option Nat) (c : Call) : Sample :=
  match c.state with
  | .answered => mix ((tone.map waitingToneAt).getD silence) (s.otherParty l role c)
  | .connected => mix (s.postSpeech c) (s.otherParty l role c)
  | .held => s.otherParty l role c
  | .lineLost => s.otherParty l role c
  | .ringing => s.ringBack l c
  | .queued => silence
  | .offered => silence
  | .transferring => silence

/-- What a call's channel hears; a free record gives nothing. -/
def State.channelAudio (s : State) (l : Link) (role : ChannelRole) (tone : Option Nat) (n : CallNo) : Sample :=
  match s.call n with
  | none => silence
  | some c => s.callAudio l role tone c

/-- The sample a channel carries toward its link; a FREE channel carries silence (R119, R120). -/
def State.channelOut (s : State) (l : Link) (k : ChanNo) : Sample :=
  let ch := s.channel l k
  match ch.use with
  | .free => silence
  | .reserved n role => s.channelAudio l role ch.waitingTone n
  | .connected n role => s.channelAudio l role ch.waitingTone n

/-- The speech of a CONNECTED call toward its post: the sum of its owner and joined channels (R120). -/
def State.partySum (s : State) (c : Call) : Sample :=
  match c.owner with
  | none => silence
  | some l => mix (s.heardFrom l c.ownerChannel) (s.heardFrom l.other c.joinedChannel)

/-- The samples that carry one bit of the test sequence: 8,000 a second carry 1,000 bits a second (R138, R155). -/
def samplesPerBit : Nat := 8

/-- The samples of the whole test sequence of 255 bits (R138). -/
def signalLength : Nat := 255 * samplesPerBit

/-- The sample that carries the test sequence: the bit sent is the register's bit 0; silence after the last bit. Its
waveform is a free value (R138, log 13). -/
def TestSignal.out (x : TestSignal) : Sample :=
  if x.sample < signalLength then Config.testSignalSample (x.register.getLsbD 0) x.sample else silence

/-- The test sequence after a sample: at the end of each bit the register shifts (R138). -/
def TestSignal.advance (x : TestSignal) : TestSignal :=
  if x.sample < signalLength then
    { register := if (x.sample + 1) % samplesPerBit = 0 then testShift x.register else x.register
      sample := x.sample + 1 }
  else x

/-- The sample a segment's line port sends on its pair: by the state of the call that holds the path, or the test
sequence of a RUNNING test (R120, R121, R138). -/
def State.lineOut (s : State) (g : SegId) : Sample :=
  match (s.path g).holder with
  | .none => silence
  | .test =>
    match (s.path g).signal with
    | none => silence
    | some x => x.out
  | .call r =>
    match s.callOf r with
    | none => silence
    | some c =>
      match c.state with
      | .connected => s.partySum c
      | .transferring => ((s.path g).holdTone.map holdToneAt).getD silence
      | .answered => silence
      | .queued => silence
      | .offered => silence
      | .held => silence
      | .lineLost => silence
      | .ringing => silence

/-! ### Sending the output queue (R160, R161) -/

/-- Whether a block is STARTED. -/
def Block.isStarted : Block → Bool
  | .notice (.started ..) => true
  | .notice _ => false
  | .response .. => false

/-- The message byte of the next frame: the next byte of the head block, or idle fill (R155, R160). -/
def LinkRec.nextByte (r : LinkRec) : Byte :=
  match r.queue with
  | [] => idleFill
  | b :: _ => b.bytes.getD r.sentBytes idleFill

/-- A link record after that byte: a block sent whole leaves the queue, and a STARTED sent whole sets the flag
(R160, R161). -/
def LinkRec.afterByte (r : LinkRec) : LinkRec :=
  match r.queue with
  | [] => { r with transmittedByte := idleFill }
  | b :: rest =>
    if b.bytes.length ≤ r.sentBytes + 1 then
      { r with transmittedByte := r.nextByte, queue := rest, sentBytes := 0,
               startedSent := r.startedSent || b.isStarted }
    else { r with transmittedByte := r.nextByte, sentBytes := r.sentBytes + 1 }

/-! ### One frame -/

/-- A tone's count after a sample, in a pattern of `k` samples. -/
def advanceTone (k : Nat) (t : Option Nat) : Option Nat := t.map (fun t => (t + 1) % k)

/-- The tones of a link's channels go on by one sample (R121). -/
def Channel.advance (ch : Channel) : Channel := { ch with waitingTone := advanceTone waitingPattern ch.waitingTone }

/-- A channel as a frame brings it a sample: one received on a FREE channel is discarded (R119, R155). -/
def Channel.hear (x : Sample) (ch : Channel) : Channel := { ch with heard := if ch.use = .free then silence else x }

/-- The four speech samples received, and what stands at the eight line ports' speech inputs (R155, log 14). -/
def hearFrame (l : Link) (samples : Vector Sample 4) (lineIn : Vector Sample 8) (s : State) : State :=
  let s := modLink l (fun r => { r with channels := Vector.ofFn (fun k => (r.channels[k]).hear samples[k]) }) s
  forEach allSegs (fun g s => modPath g (fun q => { q with speechIn := lineIn[g] }) s) s

/-- Whether a frame of link `l` begins the line ports' next sample: the ports go by the frames of either link, one
sample for each frame of the link that goes on. DESIGN CHOICE (log 14). -/
def State.portsDue (s : State) (l : Link) : Bool := s.framed.get l || !s.framed.get l.other

/-- The line ports' outputs, with the next sample of their hold tones and of the test sequence (R120, R121, R138). -/
def speakLines (s : State) : State :=
  forEach allSegs (fun g s => modPath g (fun q =>
    { q with speechOut := s.lineOut g, holdTone := advanceTone holdPattern q.holdTone,
             signal := q.signal.map TestSignal.advance }) s) s

/-- The line ports at a frame of link `l`: their next sample where it is due (log 14). -/
def speakPorts (l : Link) (s : State) : State :=
  if s.portsDue l then speakLines { s with framed := (PerLink.both false).set l true }
  else { s with framed := s.framed.set l true }

/-- The samples and the byte sent in a frame of link `l`, and the tones' next sample (R155, R160). -/
def speakFrame (l : Link) (s : State) : State :=
  let out : Vector Sample 4 := Vector.ofFn (fun k => s.channelOut l k)
  modLink l (fun r => { r.afterByte with transmitted := out, frames := r.frames + 1, channels := r.channels.map Channel.advance })
    (speakPorts l s)

/-- LINK_FRAME: the samples are exchanged and mixed, one byte is sent, and the byte received reaches the assembly
(R155, R156, R160). The outgoing byte and samples are made before the received byte is taken, so what a command that it
completes brings about goes out from the next frame on: DESIGN CHOICE (log 38). -/
def linkFrame (l : Link) (samples : Vector Sample 4) (byte : Byte) (lineIn : Vector Sample 8) (s : State) : State :=
  outsideReset (fun s => receiveByte l byte (speakFrame l (hearFrame l samples lineIn s))) s

/-- The blocks of a queue after the first STARTED, where it holds one. -/
def afterStarted : List Block → Option (List Block)
  | [] => none
  | b :: rest => if b.isStarted then some rest else afterStarted rest

/-- STARTED_SENT: a STARTED standing in the queue has been sent in full, and all before it (R161, log 20). -/
def startedSent (l : Link) (s : State) : State :=
  outsideReset (fun s =>
    match afterStarted (s.link l).queue with
    | none => s
    | some rest => modLink l (fun r => { r with queue := rest, sentBytes := 0, startedSent := true }) s) s

/-! ### The meanings of the rows -/

/-- The row LINK_FRAME (R155). -/
def execLinkFrame (l : Link) (samples : Vector Sample 4) (byte : Byte) (lineIn : Vector Sample 8) (s : State) : Host.Outcome State Fault Refusal :=
  .next (linkFrame l samples byte lineIn s)

/-- The row STARTED_SENT (R161). -/
def execStartedSent (l : Link) (s : State) : Host.Outcome State Fault Refusal :=
  .next (startedSent l s)

end Sys2Proof.Machine
end

