-- ==== Sys2Proof/Machine/Reports.lean ====
section
/-! DEFINITION. Reports (R24, R25, R177): reading a report burst, accepting it, and passing it through the
five steps of R25. -/

namespace Sys2Proof.Machine

open Sys2Proof

/-- A report's fields after its address (R177). -/
structure Report where
  serial : Serial
  format : ReportFormat
  offHook : Bool
  payload : List Byte
  deriving DecidableEq, Repr

/-- A report's hook value as the line part stores it (R21). -/
def Report.hook (r : Report) : Hook := if r.offHook then .off else .on

/-- Read a report burst answering an order to address `a`: none where its address, its length or its CRC
fails (R24, R177). -/
def decodeReport (a : Addr) (bytes : List Byte) : Option Report :=
  match bytes with
  | addr :: s3 :: s2 :: s1 :: s0 :: flags :: n :: rest =>
    let payload := rest.take n.toNat
    if addr.toNat = a.val + 1 && n.toNat ≤ 24 && rest.length = n.toNat + 2 &&
        rest.drop n.toNat = bytes16 (crc16 (addr :: s3 :: s2 :: s1 :: s0 :: flags :: n :: payload)) then
      some { serial := word32 s3 s2 s1 s0, format := if flags.getLsbD 0 then .extended else .basic,
             offHook := flags.getLsbD 1, payload := payload }
    else none
  | _ => none

/-- Step 1: the line part takes the report, and a post LOST or MUTED is found again (R25, R27). -/
def reportLine (p : PostId) (r : Report) (s : State) : State :=
  let previous := (s.post p).presence
  let s := modPost p (fun q => { q with missed := 0, lastSerial := some r.serial, lastFormat := some r.format,
                                        presence := .present }) s
  if previous = .lost || previous = .muted then sendBoth (.postFound p r.serial r.hook) s else s

/-- Store a report's hook value; ON clears barred-until-on-hook (R27, R28). -/
def Post.storeHook (offHook : Bool) (q : Post) : Post :=
  { q with hook := if offHook then .off else .on, barred := q.barred && offHook }

/-- Step 4 for a plain report: a change of hook is handed to the Call Manager, an off-hook of a barred post is
not (R28). -/
def reportHook (p : PostId) (r : Report) (result : ClassResult) (s : State) : State :=
  let old := s.post p
  let s := modPost p (Post.storeHook r.offHook) s
  if old.hook = r.hook then s
  else if r.offHook then (if old.barred then s else offHook p result s)
  else onHook p s

/-- Step 4: line return for a post that moved into PRESENT with a call or pending, else the hook (R27, R28). -/
def reportReturn (p : PostId) (found : Bool) (r : Report) (result : ClassResult) (s : State) : State :=
  if found && ((s.post p).call.isSome || (s.post p).pending) then
    lineReturn p r.offHook (modPost p (Post.storeHook r.offHook) s)
  else reportHook p r result s

/-- Step 5: the answer of a starting order, handed to its block (R23, R25). -/
def reportAnswer (p : PostId) (o : Order) (s : State) : State :=
  let overtaken := (s.poll p.seg).sent.any (·.overtaken)
  match o with
  | .select => selectAnswered p overtaken s
  | .ringOn => if overtaken then s else modPost p (fun q => { q with ringing := true }) s
  | .echoOn => echoAnswered p overtaken s
  | .status => s
  | .deselect => s
  | .registered => s
  | .clear => s
  | .ringOff => s
  | .mute => s
  | .unmute => s
  | .echoOff => s
  | .muteAll => s

/-- An accepted report, in the order of R25; its window is over, and the sweep hears of the answer. DESIGN CHOICE
(log 32): the window ends at once, so that its close is no row and carrier in what would be left of the 65535 ticks is
carrier outside a window, timed from CARRIER_START (R38). The end of a sweep, discovery (R37) or isolation (R41), is an
event after those of the report, so a path request that the report made has had its PATH_WAIT when the segment enters
ACTIVE: DESIGN CHOICE (log 37). -/
def acceptReport (p : PostId) (o : Order) (delay : Nat) (r : Report) (s : State) : State :=
  let found := (s.post p).presence ≠ .present
  let s := locateReport p delay r.serial (reportLine p r s)
  let (s, result) := classifyReport p r.format r.payload s
  let s := reportAnswer p o (reportReturn p found r result s)
  settleSweep p o true (modPoll p.seg (fun q => { q with sent := none }) s)

/-- REPORT: accepted inside an open window and 65535 ticks, else discarded (R24, R25). -/
def report (g : SegId) (delay : Nat) (bytes : List Byte) (s : State) : State :=
  outsideReset (fun s =>
    match (s.poll g).sent with
    | none => s
    | some w =>
      if delay ≤ 65535 then
        match decodeReport w.addr bytes with
        | some r => acceptReport ⟨g, w.addr⟩ w.order delay r s
        | none => s
      else s) s

/-! ### The meanings of the rows -/

/-- The row REPORT (R25). -/
def execReport (g : SegId) (delay : Nat) (bytes : List Byte) (s : State) : Host.Outcome State Fault Refusal :=
  .next (report g delay bytes s)

end Sys2Proof.Machine
end

