-- ==== Sys2Proof/Machine/StartUp.lean ====
section
/-! DEFINITION. The stored image, reset and start-up (11): the save and its read-back, LOADING and its end, the
Supply Monitor, the RESET pin, and the time clock. -/

namespace Sys2Proof.Machine

open Sys2Proof

/-! ### The stored image (R171, R172, R178) -/

/-- The marker of a loadable image (12.3). -/
def imageMarker : BitVec 32 := 0xA55A3CC3#32

/-- M, the size of the tables region as this part writes it. The arrangement is the part's own: DESIGN CHOICE, one
constant (log 5). -/
def imageSize : Nat := 2223

/-- Whether what the memory holds passes the tests of a load: marker, size and CRC (R178). -/
def StoredImage.good (m : StoredImage) : Bool := m.marker = imageMarker && m.size = imageSize && m.crcGood

/-- IMAGE_WRITTEN: the save has written its last byte, the marker; the read-back begins (R171, R172, R178). -/
def imageWritten (s : State) : State :=
  outsideReset (fun s =>
    match s.manager.save with
    | none => s
    | some v =>
      match v.stage with
      | .readingBack => s
      | .writing =>
        { s with
          memory := { marker := imageMarker, revision := v.revision, size := imageSize, tables := v.snapshot,
                      crcGood := true }
          manager := { s.manager with save := some { v with stage := .readingBack } } }) s

/-- SAVE_READ_BACK_END: the image state becomes VALID with the snapshot's revision, or INVALID, and SAVE_DONE is
sent (R172). -/
def saveReadBackEnd (fault : Bool) (s : State) : State :=
  outsideReset (fun s =>
    match s.manager.save with
    | none => s
    | some v =>
      match v.stage with
      | .writing => s
      | .readingBack =>
        let ok := s.memory.good && !fault
        let s := { s with manager := { s.manager with image := if ok then .valid v.revision else .invalid,
                                                      save := none } }
        let s := { s with loadFailed := s.loadFailed && !ok }
        sendBoth (.saveDone (if ok then some v.revision else none)) s) s

/-! ### LOADING (R18, R175) -/

/-- The segments pending start-up: those with feed enabled, ascending (R18). -/
def State.startUpOrder (s : State) : List SegId := allSegs.filter (fun g => (s.segmentConfig g).feedEnabled)

/-- The time between two turns of the start-up, 250 ms (R18). -/
def startUpSpacing : Nat := 250

/-- Set the start-up pending flags and fix each segment's turn among the pending (R18). -/
def beginStartUp (s : State) : State :=
  forEach s.startUpOrder.zipIdx (fun x s =>
    modLine x.1 (fun u => { u with startUp := true, startUpAt := some (s.timebase + startUpSpacing * x.2) }) s) s

/-- LOADING ends: the phase is RUNNING, start-up begins, and STARTED goes to each link that is UP (R161, R175). -/
def endLoading (tables : Tables) (revision : Counter) (image : ImageState) (s : State) : State :=
  let s := { s with
    supply := { s.supply with phase := .running }
    tables := tables
    manager := { s.manager with revision := revision, image := image, loadDue := none } }
  sendStartedIfDue .b (sendStartedIfDue .a (beginStartUp s))

/-- The load fails: the empty tables, revision 0 and INVALID; the image is unloadable from now on (R175). -/
def loadFails (s : State) : State := endLoading Tables.withoutImage 0#16 .invalid { s with loadFailed := true }

/-- Whether the image can be loaded now: it passes its tests, no load of it has failed, and it is returned within the
800 ms (R175, R178). -/
def State.loadable (s : State) : Bool :=
  s.memory.good && !s.loadFailed && s.manager.loadDue.all (fun due => s.timebase ≤ due)

/-- IMAGE_LOAD_END: the image was read; where it can be loaded the tables and the revision are its own (R175, R178). -/
def imageLoadEnd (fault : Bool) (s : State) : State :=
  if s.loading then
    if s.loadable && !fault then endLoading s.memory.tables s.memory.revision (.valid s.memory.revision) s
    else loadFails s
  else s

/-- LOAD_TIMEOUT: the memory has not returned the whole image within 800 ms of leaving reset (R175). -/
def loadTimeout (s : State) : State :=
  if s.loading then loadFails (reachTimer s.manager.loadDue s) else s

/-! ### Reset (R17, R173, R174) -/

/-- The hold-off, 100 ms (R173). -/
def holdOffTime : Nat := 100

/-- The longest LOADING, 800 ms (R175). -/
def loadTime : Nat := 800

/-- Whether the image stays unloadable through a reset: one in a read-back leaves a whole new image, which the next
load takes (R172, R175). -/
def State.unloadable (s : State) : Bool := s.loadFailed && s.manager.save.all (fun v => v.stage ≠ .readingBack)

/-- Every block at its after-reset values (R17, R173): what stays is the timebase, the configuration memory and whether
its image is unloadable, the on-battery level, the rows waiting, and the clock where it is kept (R174). -/
def State.resetBlocks (s : State) (supply : Supply) (clock : Clock) : State :=
  { State.reset with
    supply := supply, clock := clock, timebase := s.timebase, memory := s.memory, loadFailed := s.unloadable,
    onBattery := s.onBattery, pending := s.pending, manager := { State.reset.manager with loadDue := none } }

/-- The clock after a POWER_ON or SUPPLY_DIP reset: 0, unset, its first second counted from leaving reset (R174). -/
def Clock.cleared (now : Nat) : Clock := { seconds := 0#32, isSet := false, nextSecond := now + 1000 }

/-- The clock as a reset of a cause leaves it (R174). -/
def Clock.through (cause : ResetCause) (now : Nat) (c : Clock) : Clock :=
  match cause with
  | .powerOn => Clock.cleared now
  | .supplyDip => Clock.cleared now
  | .resetPin => c

/-- Hold the part in reset, its cause and inputs as given (R173). -/
def holdInReset (supply : Supply) (s : State) : State :=
  s.resetBlocks supply (s.clock.through supply.cause s.timebase)

/-- The cause of a reset period as a dip falls in it: POWER_ON stands, else SUPPLY_DIP (R173). -/
def Supply.dipCause (u : Supply) : ResetCause :=
  if u.phase = .inReset && u.cause = .powerOn then .powerOn else .supplyDip

/-- The part leaves reset where nothing holds it: LOADING begins (R173, R175). -/
def leaveResetIfFree (s : State) : State :=
  if s.inReset && !s.supply.senseLow && !s.supply.pinLow && s.supply.holdOff.isNone then
    { s with
      supply := { s.supply with phase := .loading }
      clock := s.clock.through s.supply.cause s.timebase
      manager := { s.manager with loadDue := some (s.timebase + loadTime) } }
  else s

/-- POWER_ON: the supply rises; the hold-off is counted from the supply-sense input first reporting good (R173). -/
def powerOn (s : State) : State :=
  holdInReset { s.supply with phase := .inReset, cause := .powerOn, senseLow := true, holdOff := none } s

/-- SUPPLY_SENSE_LOW: reset at once; a running hold-off stops (R173). -/
def supplySenseLow (s : State) : State :=
  holdInReset { s.supply with phase := .inReset, cause := s.supply.dipCause, senseLow := true, holdOff := none } s

/-- SUPPLY_SENSE_GOOD: the hold-off starts from zero at the return of the supply (R173). -/
def supplySenseGood (s : State) : State :=
  if s.inReset && s.supply.senseLow then
    { s with supply := { s.supply with senseLow := false, holdOff := some (s.timebase + holdOffTime) } }
  else s

/-- HOLD_OFF_EXPIRY: the hold-off has run; the part leaves reset unless the pin holds it (R173). -/
def holdOffExpiry (s : State) : State :=
  match s.supply.holdOff with
  | none => s
  | some t =>
    let s := reach t s
    leaveResetIfFree { s with supply := { s.supply with holdOff := none } }

/-- RESET_PIN_ASSERT: the part is in reset; a period already running keeps its cause (R173). -/
def resetPinAssert (s : State) : State :=
  if s.inReset then { s with supply := { s.supply with pinLow := true } }
  else holdInReset { s.supply with phase := .inReset, cause := .resetPin, pinLow := true } s

/-- RESET_PIN_RELEASE: with no hold-off of its own, the part leaves reset unless the supply holds it (R173). -/
def resetPinRelease (s : State) : State :=
  leaveResetIfFree { s with supply := { s.supply with pinLow := false } }

/-- Whether the time clock counts: always but in a POWER_ON or SUPPLY_DIP reset (R174). -/
def State.clockRuns (s : State) : Bool := !s.inReset || s.supply.cause = .resetPin

/-- TIME_CLOCK_TICK: the clock counts one whole second, wrapping (R174). -/
def timeClockTick (s : State) : State :=
  if s.clockRuns then
    let s := reach s.clock.nextSecond s
    { s with clock := { s.clock with seconds := s.clock.seconds + 1, nextSecond := s.clock.nextSecond + 1000 } }
  else s

/-! ### The meanings of the rows -/

/-- The row IMAGE_WRITTEN (R172). -/
def execImageWritten (s : State) : Host.Outcome State Fault Refusal :=
  .next (imageWritten s)

/-- The row SAVE_READ_BACK_END (R172). -/
def execSaveReadBackEnd (fault : Bool) (s : State) : Host.Outcome State Fault Refusal :=
  .next (saveReadBackEnd fault s)

/-- The row IMAGE_LOAD_END (R175). -/
def execImageLoadEnd (fault : Bool) (s : State) : Host.Outcome State Fault Refusal :=
  .next (imageLoadEnd fault s)

/-- The row LOAD_TIMEOUT (R175). -/
def execLoadTimeout (s : State) : Host.Outcome State Fault Refusal :=
  .next (loadTimeout s)

/-- The row POWER_ON (R173). -/
def execPowerOn (s : State) : Host.Outcome State Fault Refusal :=
  .next (powerOn s)

/-- The row SUPPLY_SENSE_LOW (R173). -/
def execSupplySenseLow (s : State) : Host.Outcome State Fault Refusal :=
  .next (supplySenseLow s)

/-- The row SUPPLY_SENSE_GOOD (R173). -/
def execSupplySenseGood (s : State) : Host.Outcome State Fault Refusal :=
  .next (supplySenseGood s)

/-- The row HOLD_OFF_EXPIRY (R173). -/
def execHoldOffExpiry (s : State) : Host.Outcome State Fault Refusal :=
  .next (holdOffExpiry s)

/-- The row RESET_PIN_ASSERT (R173). -/
def execResetPinAssert (s : State) : Host.Outcome State Fault Refusal :=
  .next (resetPinAssert s)

/-- The row RESET_PIN_RELEASE (R173). -/
def execResetPinRelease (s : State) : Host.Outcome State Fault Refusal :=
  .next (resetPinRelease s)

/-- The row TIME_CLOCK_TICK (R174). -/
def execTimeClockTick (s : State) : Host.Outcome State Fault Refusal :=
  .next (timeClockTick s)

end Sys2Proof.Machine
end

