-- ==== Sys2Proof/Machine/Timers.lean ====
section
/-! DEFINITION. The timers of calls and tests (05, 06, 08): ageing, overflow, the ring cadence and its deadline,
and the end of a line test's comparison. -/

namespace Sys2Proof.Machine

open Sys2Proof

/-- The waiting time of one ageing step, 10 s (R78). -/
def ageingTime : Nat := 10000

/-- AGEING_STEP: a waiting call's clock completes 10 s, its priority rises by one held at 255, and the clock
counts toward the next (R78). -/
def ageingStep (n : CallNo) (s : State) : State :=
  outsideReset (fun s =>
    match s.call n with
    | none => s
    | some c =>
      match c.ageing with
      | none => s
      | some began =>
        if c.state.waiting then
          modCall n (fun c => { c with priority := holdAt 255 (c.priority + 1), ageing := some (began + ageingTime) })
            (reach (began + ageingTime) s)
        else s) s

/-- OVERFLOW_TIMER_EXPIRY: a HOME call in QUEUED or OFFERED becomes OPEN, and both links are filled (R97, R98,
R100). -/
def overflowTimerExpiry (n : CallNo) (s : State) : State :=
  outsideReset (fun s =>
    match s.call n with
    | none => s
    | some c =>
      match c.overflowAt with
      | none => s
      | some t =>
        if c.phase = some .home && (c.state = .queued || c.state = .offered) then fillBoth (openCall n (reach t s))
        else s) s

/-- The unit of the ring cadence, 50 ms (R131). -/
def ringUnit : Nat := 50

/-- RING_PERIOD_START: the next period of a RINGING callback begins as the present one ends (R131). -/
def ringPeriodStart (n : CallNo) (s : State) : State :=
  outsideReset (fun s =>
    match s.call n with
    | none => s
    | some c =>
      match c.cadence with
      | none => s
      | some d =>
        if c.state = .ringing then
          let t := d.periodStart + ringUnit * d.period
          startPeriod n c.post d.began t (reach t s)
        else s) s

/-- RING_ON_TIME_END: the on-time of the present period has passed, short of the period: ring-back falls silent and
RING_OFF is requested (R131, R132). -/
def ringOnTimeEnd (n : CallNo) (s : State) : State :=
  outsideReset (fun s =>
    match s.call n with
    | none => s
    | some c =>
      match c.cadence with
      | none => s
      | some d =>
        if c.state = .ringing && d.audible && d.onTime < d.period then
          let s := reach (d.periodStart + ringUnit * d.onTime) s
          requestOrder c.post .ringOff (modCall n (fun c => { c with cadence := some { d with audible := false } }) s)
        else s) s

/-- The ending of a callback at its ring deadline: CALLBACK_UNANSWERED with the whole seconds it rang (R134). -/
def endUnanswered (n : CallNo) (c : Call) (s : State) : State :=
  let rang := match c.cadence with
    | some d => (s.timebase - d.began) / 1000
    | none => 0
  sendBoth (.callbackUnanswered (c.ref n) c.post c.owner c.origin rang) s

/-- RING_DEADLINE: a RINGING callback's deadline passes and it is freed; after it has left RINGING, nothing (R134). -/
def ringDeadline (n : CallNo) (s : State) : State :=
  outsideReset (fun s =>
    match s.call n with
    | none => s
    | some c =>
      match c.ringDeadline with
      | none => s
      | some t => if c.state = .ringing then endCall n (endUnanswered n c) (reach t s) else s) s

/-! ### The line test's sequence (R138, R139) -/

/-- The first `k` bits sent from a register (R138). -/
def testBits : Nat → BitVec 8 → List Bool
  | 0, _ => []
  | k + 1, r => r.getLsbD 0 :: testBits k (testShift r)

/-- The test sequence: 255 bits from the register at 01 hex (R138). -/
def testSequence : List Bool := testBits 255 0x01#8

/-- The errors of a returned sequence against the bits sent: each difference, and each bit missing (R138). -/
def countErrors : List Bool → List Bool → Nat
  | [], _ => 0
  | _ :: sent, [] => 1 + countErrors sent []
  | b :: sent, r :: returned => (if b = r then 0 else 1) + countErrors sent returned

/-- The error count of a test: with no echo carrier in time every bit counts (R138). -/
def testErrors (returned : Option (List Bool)) : Nat := countErrors testSequence (returned.getD [])

/-- The result of a test against the pass threshold (R139). -/
def judgeTest (threshold errors : Nat) : TestResult := if errors ≤ threshold then .pass errors else .fail errors

/-- TEST_COMPARISON_END: a RUNNING test ends with its result, its path released and the grant evaluated (R139). -/
def testComparisonEnd (g : SegId) (returned : Option (List Bool)) (s : State) : State :=
  outsideReset (fun s =>
    match (s.path g).test with
    | none => s
    | some t =>
      if t.phase = .running then
        let p : PostId := ⟨g, t.addr⟩
        let result := judgeTest (s.segmentConfig g).testThreshold (testErrors returned)
        let s := requestOrder p .echoOff s
        let s := modPath g (fun q => { q with lastTest := some result, test := none, signal := none, holder := .none }) s
        sendBoth (.testResult p t.requester result none) (evaluateGrant g s)
      else s) s

/-! ### The meanings of the rows -/

/-- The row AGEING_STEP (R78). -/
def execAgeingStep (n : CallNo) (s : State) : Host.Outcome State Fault Refusal :=
  .next (ageingStep n s)

/-- The row OVERFLOW_TIMER_EXPIRY (R98). -/
def execOverflowTimerExpiry (n : CallNo) (s : State) : Host.Outcome State Fault Refusal :=
  .next (overflowTimerExpiry n s)

/-- The row RING_PERIOD_START (R131). -/
def execRingPeriodStart (n : CallNo) (s : State) : Host.Outcome State Fault Refusal :=
  .next (ringPeriodStart n s)

/-- The row RING_ON_TIME_END (R131). -/
def execRingOnTimeEnd (n : CallNo) (s : State) : Host.Outcome State Fault Refusal :=
  .next (ringOnTimeEnd n s)

/-- The row RING_DEADLINE (R134). -/
def execRingDeadline (n : CallNo) (s : State) : Host.Outcome State Fault Refusal :=
  .next (ringDeadline n s)

/-- The row TEST_COMPARISON_END (R139). -/
def execTestComparisonEnd (g : SegId) (returned : Option (List Bool)) (s : State) : Host.Outcome State Fault Refusal :=
  .next (testComparisonEnd g returned s)

end Sys2Proof.Machine
end

