-- ==== Sys2Proof/Machine/Dispatch.lean ====
section
/-! DEFINITION. The dispatch: one arm per row, each one call of its meaning. -/

namespace Sys2Proof.Machine

open Sys2Proof

/-- The effect of a row on everything but the queue of waiting rows. -/
def exec (i : Instr) (s : State) : Host.Outcome State Fault Refusal :=
  match i with
  | .readStatus l tag => Sys2Proof.Machine.execReadStatus l tag s
  | .setTime l tag seconds => Sys2Proof.Machine.execSetTime l tag seconds s
  | .listCalls l tag => Sys2Proof.Machine.execListCalls l tag s
  | .readCall l tag call => Sys2Proof.Machine.execReadCall l tag call s
  | .listAbandoned l tag => Sys2Proof.Machine.execListAbandoned l tag s
  | .listPending l tag => Sys2Proof.Machine.execListPending l tag s
  | .answer l tag call channel => Sys2Proof.Machine.execAnswer l tag call channel s
  | .decline l tag call => Sys2Proof.Machine.execDecline l tag call s
  | .hold l tag call => Sys2Proof.Machine.execHold l tag call s
  | .retrieve l tag call => Sys2Proof.Machine.execRetrieve l tag call s
  | .release l tag call => Sys2Proof.Machine.execRelease l tag call s
  | .join l tag call channel => Sys2Proof.Machine.execJoin l tag call channel s
  | .leave l tag call => Sys2Proof.Machine.execLeave l tag call s
  | .callPost l tag post channel priority => Sys2Proof.Machine.execCallPost l tag post channel priority s
  | .testPost l tag post => Sys2Proof.Machine.execTestPost l tag post s
  | .handoverFinish l tag => Sys2Proof.Machine.execHandoverFinish l tag s
  | .handoverImmediate l tag => Sys2Proof.Machine.execHandoverImmediate l tag s
  | .resume l tag => Sys2Proof.Machine.execResume l tag s
  | .readPost l tag post => Sys2Proof.Machine.execReadPost l tag post s
  | .writePost l tag expected post fields => Sys2Proof.Machine.execWritePost l tag expected post fields s
  | .clearPost l tag expected post => Sys2Proof.Machine.execClearPost l tag expected post s
  | .readSegment l tag segment => Sys2Proof.Machine.execReadSegment l tag segment s
  | .writeSegment l tag expected segment fields => Sys2Proof.Machine.execWriteSegment l tag expected segment fields s
  | .feedOff l tag segment => Sys2Proof.Machine.execFeedOff l tag segment s
  | .feedOn l tag segment => Sys2Proof.Machine.execFeedOn l tag segment s
  | .feedReEnable l tag segment => Sys2Proof.Machine.execFeedReEnable l tag segment s
  | .unmutePost l tag post => Sys2Proof.Machine.execUnmutePost l tag post s
  | .readWindow l tag window => Sys2Proof.Machine.execReadWindow l tag window s
  | .writeWindow l tag expected window fields => Sys2Proof.Machine.execWriteWindow l tag expected window fields s
  | .readClass l tag entry => Sys2Proof.Machine.execReadClass l tag entry s
  | .writeClass l tag expected entry fields => Sys2Proof.Machine.execWriteClass l tag expected entry fields s
  | .writeDefaults l tag expected home weight overflow => Sys2Proof.Machine.execWriteDefaults l tag expected home weight overflow s
  | .writeLink l tag expected named depth lossTime => Sys2Proof.Machine.execWriteLink l tag expected named depth lossTime s
  | .lockStructure l tag => Sys2Proof.Machine.execLockStructure l tag s
  | .saveImage l tag => Sys2Proof.Machine.execSaveImage l tag s
  | .unknownCommand l tag => Sys2Proof.Machine.execUnknownCommand l tag s
  | .badBlock l bytes => Sys2Proof.Machine.execBadBlock l bytes s
  | .linkFrame l samples byte lineIn => Sys2Proof.Machine.execLinkFrame l samples byte lineIn s
  | .startedSent l => Sys2Proof.Machine.execStartedSent l s
  | .linkLossExpiry l => Sys2Proof.Machine.execLinkLossExpiry l s
  | .feedVoltageFall g volts overLimit => Sys2Proof.Machine.execFeedVoltageFall g volts overLimit s
  | .feedVoltageAboveTurnOff g volts overLimit => Sys2Proof.Machine.execFeedVoltageAboveTurnOff g volts overLimit s
  | .feedVoltageAboveTurnOn g volts overLimit => Sys2Proof.Machine.execFeedVoltageAboveTurnOn g volts overLimit s
  | .overCurrent g volts => Sys2Proof.Machine.execOverCurrent g volts s
  | .underVoltageFilterExpiry g => Sys2Proof.Machine.execUnderVoltageFilterExpiry g s
  | .rePowerTimerExpiry g => Sys2Proof.Machine.execRePowerTimerExpiry g s
  | .tripRetryExpiry g => Sys2Proof.Machine.execTripRetryExpiry g s
  | .startUpSwitchOn g => Sys2Proof.Machine.execStartUpSwitchOn g s
  | .pollSlot g carrier onBattery => Sys2Proof.Machine.execPollSlot g carrier onBattery s
  | .report g delay bytes => Sys2Proof.Machine.execReport g delay bytes s
  | .responseWindowClose g carrier => Sys2Proof.Machine.execResponseWindowClose g carrier s
  | .carrierStart g => Sys2Proof.Machine.execCarrierStart g s
  | .attentionBurst g => Sys2Proof.Machine.execAttentionBurst g s
  | .babble g => Sys2Proof.Machine.execBabble g s
  | .isolationListenEnd g carrier => Sys2Proof.Machine.execIsolationListenEnd g carrier s
  | .economyPassStart g => Sys2Proof.Machine.execEconomyPassStart g s
  | .onBatteryDeassert => Sys2Proof.Machine.execOnBatteryDeassert s
  | .ageingStep n => Sys2Proof.Machine.execAgeingStep n s
  | .overflowTimerExpiry n => Sys2Proof.Machine.execOverflowTimerExpiry n s
  | .ringPeriodStart n => Sys2Proof.Machine.execRingPeriodStart n s
  | .ringOnTimeEnd n => Sys2Proof.Machine.execRingOnTimeEnd n s
  | .ringDeadline n => Sys2Proof.Machine.execRingDeadline n s
  | .testComparisonEnd g returned => Sys2Proof.Machine.execTestComparisonEnd g returned s
  | .imageWritten => Sys2Proof.Machine.execImageWritten s
  | .saveReadBackEnd fault => Sys2Proof.Machine.execSaveReadBackEnd fault s
  | .imageLoadEnd fault => Sys2Proof.Machine.execImageLoadEnd fault s
  | .loadTimeout => Sys2Proof.Machine.execLoadTimeout s
  | .powerOn => Sys2Proof.Machine.execPowerOn s
  | .supplySenseLow => Sys2Proof.Machine.execSupplySenseLow s
  | .supplySenseGood => Sys2Proof.Machine.execSupplySenseGood s
  | .holdOffExpiry => Sys2Proof.Machine.execHoldOffExpiry s
  | .resetPinAssert => Sys2Proof.Machine.execResetPinAssert s
  | .resetPinRelease => Sys2Proof.Machine.execResetPinRelease s
  | .timeClockTick => Sys2Proof.Machine.execTimeClockTick s

end Sys2Proof.Machine
end

