-- ==== Sys2Proof/Machine/Step.lean ====
section
/-! DEFINITION. One step: the row at the front of the queue is taken; on an empty queue a millisecond of the
timebase passes. -/

namespace Sys2Proof.Machine

open Sys2Proof

/-- One step of the part. On an empty queue nothing is asked of it and its own timebase goes on by 1 ms: DESIGN
CHOICE (log 2). -/
def step (s : State) : Host.Outcome State Fault Refusal :=
  match s.pending with
  | [] => .next { s with timebase := s.timebase + 1 }
  | c :: rest => exec c { s with pending := rest }

/-- The state with the command that a table word spells put at the front of its queue; no row of the table has bits,
so no word spells one. -/
def State.withFetchWord (s : State) (nbits w : Nat) : State :=
  match decodeTableWord nbits w with
  | none => s
  | some c => { s with pending := c :: s.pending }

end Sys2Proof.Machine
end

