-- ==== Sys2Proof/Safety.lean ====
section
/-! DEFINITION. What a safe part keeps, in the terms the statements use: the invariants that every step keeps, and
what an event of one part of the SC816 leaves as it is in the others (its frame). -/

namespace Sys2Proof

open Sys2Proof.Machine

/-! ### The rows, as the statements speak of them -/

/-- The link, the tag and the command of a row that is a command; none for an event (R158). -/
def Instr.command : Instr → Option (Link × Tag × CommandType)
  | .readStatus l tag => some (l, tag, .readStatus)
  | .setTime l tag _ => some (l, tag, .setTime)
  | .listCalls l tag => some (l, tag, .listCalls)
  | .readCall l tag _ => some (l, tag, .readCall)
  | .listAbandoned l tag => some (l, tag, .listAbandoned)
  | .listPending l tag => some (l, tag, .listPending)
  | .answer l tag _ _ => some (l, tag, .answer)
  | .decline l tag _ => some (l, tag, .decline)
  | .hold l tag _ => some (l, tag, .hold)
  | .retrieve l tag _ => some (l, tag, .retrieve)
  | .release l tag _ => some (l, tag, .release)
  | .join l tag _ _ => some (l, tag, .join)
  | .leave l tag _ => some (l, tag, .leave)
  | .callPost l tag _ _ _ => some (l, tag, .callPost)
  | .testPost l tag _ => some (l, tag, .testPost)
  | .handoverFinish l tag => some (l, tag, .handover)
  | .handoverImmediate l tag => some (l, tag, .handover)
  | .resume l tag => some (l, tag, .resume)
  | .readPost l tag _ => some (l, tag, .readPost)
  | .writePost l tag _ _ _ => some (l, tag, .writePost)
  | .clearPost l tag _ _ => some (l, tag, .clearPost)
  | .readSegment l tag _ => some (l, tag, .readSegment)
  | .writeSegment l tag _ _ _ => some (l, tag, .writeSegment)
  | .feedOff l tag _ => some (l, tag, .feed)
  | .feedOn l tag _ => some (l, tag, .feed)
  | .feedReEnable l tag _ => some (l, tag, .feed)
  | .unmutePost l tag _ => some (l, tag, .unmutePost)
  | .readWindow l tag _ => some (l, tag, .readWindow)
  | .writeWindow l tag _ _ _ => some (l, tag, .writeWindow)
  | .readClass l tag _ => some (l, tag, .readClass)
  | .writeClass l tag _ _ _ => some (l, tag, .writeClass)
  | .writeDefaults l tag _ _ _ _ => some (l, tag, .writeDefaults)
  | .writeLink l tag _ _ _ _ => some (l, tag, .writeLink)
  | .lockStructure l tag => some (l, tag, .lockStructure)
  | .saveImage l tag => some (l, tag, .saveImage)
  | .unknownCommand l tag => some (l, tag, .unknown)
  | .badBlock _ _ => none
  | .linkFrame _ _ _ _ => none
  | .startedSent _ => none
  | .linkLossExpiry _ => none
  | .feedVoltageFall _ _ _ => none
  | .feedVoltageAboveTurnOff _ _ _ => none
  | .feedVoltageAboveTurnOn _ _ _ => none
  | .overCurrent _ _ => none
  | .underVoltageFilterExpiry _ => none
  | .rePowerTimerExpiry _ => none
  | .tripRetryExpiry _ => none
  | .startUpSwitchOn _ => none
  | .pollSlot _ _ _ => none
  | .report _ _ _ => none
  | .responseWindowClose _ _ => none
  | .carrierStart _ => none
  | .attentionBurst _ => none
  | .babble _ => none
  | .isolationListenEnd _ _ => none
  | .economyPassStart _ => none
  | .onBatteryDeassert => none
  | .ageingStep _ => none
  | .overflowTimerExpiry _ => none
  | .ringPeriodStart _ => none
  | .ringOnTimeEnd _ => none
  | .ringDeadline _ => none
  | .testComparisonEnd _ _ => none
  | .imageWritten => none
  | .saveReadBackEnd _ => none
  | .imageLoadEnd _ => none
  | .loadTimeout => none
  | .powerOn => none
  | .supplySenseLow => none
  | .supplySenseGood => none
  | .holdOffExpiry => none
  | .resetPinAssert => none
  | .resetPinRelease => none
  | .timeClockTick => none

/-- The operands of a command that are at fault ahead of its test for LOADING, so that it is refused MALFORMED in LOADING
too: a post, segment, window, entry, call or link number out of range of a read, FEED, UNMUTE_POST, WRITE_CLASS or
WRITE_LINK, and a block that names no command (R159; logs 9 and 17). -/
def Instr.faultFirst : Instr → Prop
  | .readCall _ _ c => callNumberOf c.number = none
  | .readPost _ _ p => postOf p = none
  | .unmutePost _ _ p => postOf p = none
  | .readSegment _ _ g => segmentOf g = none
  | .feedOff _ _ g => segmentOf g = none
  | .feedOn _ _ g => segmentOf g = none
  | .feedReEnable _ _ g => segmentOf g = none
  | .readWindow _ _ w => 8 ≤ w
  | .readClass _ _ e => 8 < e
  | .writeClass _ _ _ e f => 8 ≤ e ∨ (∀ x, f.kind ≠ .named x) ∨ 23 < f.offset
  | .writeLink _ _ _ n _ _ => ∀ x, n ≠ .named x
  | .unknownCommand _ _ => True
  | .badBlock _ _ | .linkFrame _ _ _ _ | .startedSent _ | .linkLossExpiry _ | .feedVoltageFall _ _ _
  | .feedVoltageAboveTurnOff _ _ _ | .feedVoltageAboveTurnOn _ _ _ | .overCurrent _ _ | .underVoltageFilterExpiry _
  | .rePowerTimerExpiry _ | .tripRetryExpiry _ | .startUpSwitchOn _ | .pollSlot _ _ _ | .report _ _ _
  | .responseWindowClose _ _ | .carrierStart _ | .attentionBurst _ | .babble _ | .isolationListenEnd _ _
  | .economyPassStart _ | .onBatteryDeassert | .ageingStep _ | .overflowTimerExpiry _ | .ringPeriodStart _
  | .ringOnTimeEnd _ | .ringDeadline _ | .testComparisonEnd _ _ | .imageWritten | .saveReadBackEnd _ | .imageLoadEnd _
  | .loadTimeout | .powerOn | .supplySenseLow | .supplySenseGood | .holdOffExpiry | .resetPinAssert | .resetPinRelease
  | .timeClockTick | .readStatus _ _ | .setTime _ _ _ | .listCalls _ _ | .listAbandoned _ _ | .listPending _ _
  | .answer _ _ _ _ | .decline _ _ _ | .hold _ _ _ | .retrieve _ _ _ | .release _ _ _ | .join _ _ _ _ | .leave _ _ _
  | .callPost _ _ _ _ _ | .testPost _ _ _ | .handoverFinish _ _ | .handoverImmediate _ _ | .resume _ _
  | .writePost _ _ _ _ _ | .clearPost _ _ _ _ | .writeSegment _ _ _ _ _ | .writeWindow _ _ _ _ _
  | .writeDefaults _ _ _ _ _ _ | .lockStructure _ _ | .saveImage _ _ => False

/-- The rows that bring bytes to a receive assembly: a command they complete is taken in the same step (R155, R156). -/
def Instr.bringsBytes : Instr → Bool
  | .linkFrame .. => true
  | .badBlock .. => true
  | _ => false

/-- The rows taken while the part is held in reset: the supply, the RESET pin and the time clock (R173, R174). -/
def Instr.actsInReset : Instr → Bool
  | .readStatus _ _ => false
  | .setTime _ _ _ => false
  | .listCalls _ _ => false
  | .readCall _ _ _ => false
  | .listAbandoned _ _ => false
  | .listPending _ _ => false
  | .answer _ _ _ _ => false
  | .decline _ _ _ => false
  | .hold _ _ _ => false
  | .retrieve _ _ _ => false
  | .release _ _ _ => false
  | .join _ _ _ _ => false
  | .leave _ _ _ => false
  | .callPost _ _ _ _ _ => false
  | .testPost _ _ _ => false
  | .handoverFinish _ _ => false
  | .handoverImmediate _ _ => false
  | .resume _ _ => false
  | .readPost _ _ _ => false
  | .writePost _ _ _ _ _ => false
  | .clearPost _ _ _ _ => false
  | .readSegment _ _ _ => false
  | .writeSegment _ _ _ _ _ => false
  | .feedOff _ _ _ => false
  | .feedOn _ _ _ => false
  | .feedReEnable _ _ _ => false
  | .unmutePost _ _ _ => false
  | .readWindow _ _ _ => false
  | .writeWindow _ _ _ _ _ => false
  | .readClass _ _ _ => false
  | .writeClass _ _ _ _ _ => false
  | .writeDefaults _ _ _ _ _ _ => false
  | .writeLink _ _ _ _ _ _ => false
  | .lockStructure _ _ => false
  | .saveImage _ _ => false
  | .unknownCommand _ _ => false
  | .badBlock _ _ => false
  | .linkFrame _ _ _ _ => false
  | .startedSent _ => false
  | .linkLossExpiry _ => false
  | .feedVoltageFall _ _ _ => false
  | .feedVoltageAboveTurnOff _ _ _ => false
  | .feedVoltageAboveTurnOn _ _ _ => false
  | .overCurrent _ _ => false
  | .underVoltageFilterExpiry _ => false
  | .rePowerTimerExpiry _ => false
  | .tripRetryExpiry _ => false
  | .startUpSwitchOn _ => false
  | .pollSlot _ _ _ => false
  | .report _ _ _ => false
  | .responseWindowClose _ _ => false
  | .carrierStart _ => false
  | .attentionBurst _ => false
  | .babble _ => false
  | .isolationListenEnd _ _ => false
  | .economyPassStart _ => false
  | .onBatteryDeassert => false
  | .ageingStep _ => false
  | .overflowTimerExpiry _ => false
  | .ringPeriodStart _ => false
  | .ringOnTimeEnd _ => false
  | .ringDeadline _ => false
  | .testComparisonEnd _ _ => false
  | .imageWritten => false
  | .saveReadBackEnd _ => false
  | .imageLoadEnd _ => false
  | .loadTimeout => false
  | .powerOn => true
  | .supplySenseLow => true
  | .supplySenseGood => true
  | .holdOffExpiry => true
  | .resetPinAssert => true
  | .resetPinRelease => true
  | .timeClockTick => true

end Sys2Proof

namespace Sys2Proof.Machine

open Sys2Proof

/-! ### Frames: what an event of calls, offers, paths and orders leaves alone -/

/-- A link record after events of calls and paths: its supervision, its frames, its receive assembly and the mode
stand, its output queue only grows, and what was heard on a channel stands or is silence again (R154, R158, R160). -/
structure LinkKept (r r' : LinkRec) : Prop where
  up : r'.up = r.up
  lossTimer : r'.lossTimer = r.lossTimer
  startedSent : r'.startedSent = r.startedSent
  assembly : r'.assembly = r.assembly
  sentBytes : r'.sentBytes = r.sentBytes
  transmitted : r'.transmitted = r.transmitted
  transmittedByte : r'.transmittedByte = r.transmittedByte
  frames : r'.frames = r.frames
  queue : r.queue <+: r'.queue
  heard : ∀ k : ChanNo, (r'.channels[k]).heard = (r.channels[k]).heard ∨ (r'.channels[k]).heard = silence

/-- A post record after events of calls and paths: presence, hook, what its last report gave, its location and event
parts stand (R20, R21). -/
structure PostKept (r r' : Post) : Prop where
  presence : r'.presence = r.presence
  hook : r'.hook = r.hook
  missed : r'.missed = r.missed
  lastSerial : r'.lastSerial = r.lastSerial
  lastFormat : r'.lastFormat = r.lastFormat
  barred : r'.barred = r.barred
  filtered : r'.filtered = r.filtered
  mismatch : r'.mismatch = r.mismatch
  verification : r'.verification = r.verification
  lastSample : r'.lastSample = r.lastSample
  alarms : r'.alarms = r.alarms

/-- The Poll Scheduler's part after events of calls and paths: its sweeps and its position stand; orders may join its
queue, and it may return to NORMAL tempo (R31, R36). -/
structure PollKept (q q' : Poll) : Prop where
  sweepPosition : q'.sweepPosition = q.sweepPosition
  lastQueued : q'.lastQueued = q.lastQueued
  discovery : q'.discovery = q.discovery
  isolation : q'.isolation = q.isolation
  isolationPosition : q'.isolationPosition = q.isolationPosition
  burst : q'.burst = q.burst
  tempo : q'.tempo = q.tempo ∨ q'.tempo = .normal

/-- A link's offering mode stands, or its drain has ended (R145). -/
def ModeKept (r r' : LinkRec) : Prop := r'.mode = r.mode ∨ (r.mode = .draining ∧ r'.mode = .closed)

/-- What every event of calls, offers, paths and orders leaves alone: the supply, the clock, the tables and their
manager, the memory, the timebase, the on-battery input, the ports' clock and the waiting rows; every Line Unit; and of links, posts
and Poll Schedulers all but what such an event is for. -/
structure CallFrame (s t : State) : Prop where
  supply : t.supply = s.supply
  timebase : t.timebase = s.timebase
  clock : t.clock = s.clock
  manager : t.manager = s.manager
  tables : t.tables = s.tables
  memory : t.memory = s.memory
  loadFailed : t.loadFailed = s.loadFailed
  onBattery : t.onBattery = s.onBattery
  framed : t.framed = s.framed
  pending : t.pending = s.pending
  line : ∀ g, t.line g = s.line g
  link : ∀ l, LinkKept (s.link l) (t.link l)
  mode : ∀ l, ModeKept (s.link l) (t.link l)
  post : ∀ p, PostKept (s.post p) (t.post p)
  poll : ∀ g, PollKept (s.poll g) (t.poll g)
  speech : ∀ g, (t.path g).speechIn = (s.path g).speechIn ∧ (t.path g).speechOut = (s.path g).speechOut

/-! ### Invariants -/

/-- No two entries of an order queue are for one address (R31). -/
def Poll.Distinct (q : Poll) : Prop := (q.queue.map (·.addr)).Nodup

/-- Every segment's order queue holds at most one entry per address (R31). -/
def QueuesDistinct (s : State) : Prop := ∀ g, (s.poll g).Distinct

/-- A segment is LOCKED exactly with its consecutive trip count at 3, and no count is above 3 (R10, R12). -/
def TripsLegal (s : State) : Prop := ∀ g, (s.line g).trips ≤ 3 ∧ ((s.line g).feed = .locked ↔ (s.line g).trips = 3)

/-- At least one link is ACCEPTING (R143). -/
def SomeAccepting (s : State) : Prop := (s.link .a).mode = .accepting ∨ (s.link .b).mode = .accepting

/-- The part is held in reset exactly while the supply is low, its hold-off runs or the RESET pin is low (R173). -/
def ResetHeld (s : State) : Prop :=
  s.supply.phase = .inReset ↔ (s.supply.senseLow = true ∨ s.supply.holdOff.isSome = true ∨ s.supply.pinLow = true)

/-- The two counts of a post record in their range (R21, R56). -/
def Post.CountsOk (r : Post) : Prop := r.missed ≤ 3 ∧ r.mismatch ≤ 3

/-- Missed and mismatch counts at most 3, priorities and transfer counts at most 255 (R21, R56, R77, R94). -/
def CountsInRange (s : State) : Prop :=
  (∀ p, (s.post p).CountsOk) ∧ (∀ n c, s.call n = some c → c.priority ≤ 255) ∧ ∀ l, (s.link l).transfers ≤ 255

/-- The abandoned list holds at most 16 entries, and no post twice (R83). -/
def AbandonedOk (l : List AbandonedEntry) : Prop := l.length ≤ 16 ∧ (l.map (·.post)).Nodup

/-- The creation order ranks each record in use, and no other, once (R74). -/
def CreationExact (s : State) : Prop := s.created.Nodup ∧ ∀ n, n ∈ s.created ↔ (s.call n).isSome = true

/-- A call has an owner exactly in the owned states (R73). -/
def OwnersMatch (s : State) : Prop := ∀ n c, s.call n = some c → c.owner.isSome = c.state.owned

/-- A post's call part names exactly the call record of that post, and no post is both the post of a call and
pending; the pending list holds exactly the pending posts, none twice (R75, R80). -/
structure CallPartsMatch (s : State) : Prop where
  named : ∀ n c, s.call n = some c → (s.post c.post).call = some (c.ref n)
  names : ∀ p r, (s.post p).call = some r → ∃ c, s.call r.number = some c ∧ c.post = p ∧ c.sequence = r.sequence
  listed : ∀ p, (s.post p).pending = true ↔ p ∈ s.pendingList.map (·.post)
  once : (s.pendingList.map (·.post)).Nodup
  apart : ∀ p, (s.post p).pending = true → (s.post p).call = none

/-- Outside RUNNING nothing has begun: no call, no pending post, no request, every segment OFF with no start-up pending,
no window open, no path held and no line test (R17, R175). -/
def IdleOutsideRunning (s : State) : Prop :=
  s.supply.phase ≠ .running →
    (∀ n, s.call n = none) ∧ s.created = [] ∧ s.pendingList = [] ∧ s.requests = [] ∧
    ∀ g, (s.line g).feed = .off ∧ (s.line g).startUp = false ∧ (s.poll g).sent = none ∧ (s.path g).holder = .none ∧
      (s.path g).test = none

/-- The number of calls in use that meet a test. -/
def State.countCalls (s : State) (test : Call → Bool) : Nat := (allCalls.filter (fun n => (s.call n).any test)).length

/-- The offers agree with the links: a link's outstanding-offer count is the number of calls whose offered set holds it;
a QUEUED or an owned call is offered to no link, an OFFERED one to some; a call is offered to an UP link only, an ACCEPTING
one unless the call is TRANSFERRING, and then not a CLOSED one; and a link's OFFERED calls number at most its depth (R99,
R102, R150). -/
structure OffersMatch (s : State) : Prop where
  counted : ∀ l, (s.link l).offers = s.countCalls (fun c => c.offered.get l)
  unoffered : ∀ n c, s.call n = some c → c.state = .queued ∨ c.state.owned = true → c.offered = PerLink.both false
  offered : ∀ n c, s.call n = some c → c.state = .offered → c.offered.a = true ∨ c.offered.b = true
  takers : ∀ n c l, s.call n = some c → c.offered.get l = true → (s.link l).up = true ∧ (s.link l).mode ≠ .closed ∧
    (c.state ≠ .transferring → (s.link l).mode = .accepting)
  depth : ∀ l, s.countCalls (fun c => c.state = .offered && c.offered.get l) ≤ (s.tables.links.get l).depth

/-- The channel table agrees with the calls: a call has an owner channel exactly with its owner and a joined channel only
with one; each of its channels names it in its role, CONNECTED exactly while it is CONNECTED and with the waiting tone
exactly while it is ANSWERED; and a channel of no call is FREE and silent (R119, R121). -/
structure ChannelsMatch (s : State) : Prop where
  owner : ∀ n c, s.call n = some c → c.ownerChannel.isSome = c.owner.isSome
  joined : ∀ n c, s.call n = some c → c.owner = none → c.joinedChannel = none
  placed : ∀ n c, s.call n = some c → ∀ x ∈ c.channels, (s.channel x.1 x.2.1).use =
    (if c.state = .connected then .connected n x.2.2 else .reserved n x.2.2) ∧
    ((s.channel x.1 x.2.1).waitingTone.isSome = true ↔ c.state = .answered)
  free : ∀ l k, (∀ n c, s.call n = some c → ∀ x ∈ c.channels, ¬(x.1 = l ∧ x.2.1 = k)) →
    s.channel l k = { use := .free, waitingTone := none, heard := 0#16 }

/-- The speech paths agree with calls and tests: a call marked as holding its path is its segment's holder, in ANSWERED,
CONNECTED or TRANSFERRING and with its line up, a CONNECTED one always; the grant mark names the holding call, its SELECT
answered once it has left ANSWERED; a call holds a request exactly in ANSWERED without the path, a line test exactly while
WAITING; a test holds the path from STARTING on, and its sequence is sent while it is RUNNING; the hold tone plays while
the holder is TRANSFERRING; and a post is selected only while its call holds the path (R88, R89, R112 to R117, R121,
R138). -/
structure PathsMatch (s : State) : Prop where
  held : ∀ n c, s.call n = some c → (c.pathHeld = true ↔ (s.path c.post.seg).holder = .call (c.ref n))
  holder : ∀ g r, (s.path g).holder = .call r → ∃ c, s.callOf r = some c ∧ c.post.seg = g
  holding : ∀ n c, s.call n = some c → c.pathHeld = true →
    (c.state = .answered ∨ c.state = .connected ∨ c.state = .transferring) ∧ c.lineDown = false
  connected : ∀ n c, s.call n = some c → c.state = .connected → c.pathHeld = true
  lineDown : ∀ n c, s.call n = some c → (c.state = .lineLost → c.lineDown = true) ∧
    (c.lineDown = true → c.state = .lineLost ∨ c.state.waiting = true)
  grant : ∀ g r c, (s.path g).holder = .call r → s.callOf r = some c →
    (s.path g).grant = some ⟨r, decide (c.state ≠ .answered)⟩
  noGrant : ∀ g, (∀ r, (s.path g).holder ≠ .call r) → (s.path g).grant = none
  asked : ∀ n c, s.call n = some c → s.requests.filter (fun q => q.claimant = .call n) =
    if c.state = .answered ∧ c.pathHeld = false then [⟨.call n, c.post⟩] else []
  freed : ∀ n, s.call n = none → ∀ q ∈ s.requests, q.claimant ≠ .call n
  tests : ∀ g, s.requests.filter (fun q => q.claimant = .test && q.post.seg = g) =
    match (s.path g).test with
    | some x => if x.phase = .waiting then [⟨.test, ⟨g, x.addr⟩⟩] else []
    | none => []
  testing : ∀ g, (s.path g).holder = .test ↔ ∃ x, (s.path g).test = some x ∧ x.phase ≠ .waiting
  signal : ∀ g, (s.path g).signal.isSome = true ↔ ∃ x, (s.path g).test = some x ∧ x.phase = .running
  holdTone : ∀ g, (s.path g).holdTone.isSome = true ↔
    ∃ r c, (s.path g).holder = .call r ∧ s.callOf r = some c ∧ c.state = .transferring
  selected : ∀ p, (s.post p).selected = true → (s.post p).presence = .present ∧
    ∃ r c, (s.path p.seg).holder = .call r ∧ s.callOf r = some c ∧ c.post = p

/-- The queue-load flag agrees with the waiting count: clear below 16, set above 12 (R90). -/
def LoadMatches (s : State) : Prop :=
  (s.queueLoad = false → s.waitingCount < 16) ∧ (s.queueLoad = true → 12 < s.waitingCount)

/-! ### Ranges of the configuration -/

/-- A configured part WRITE_POST can store (R167). -/
def PostConfig.Legal (c : PostConfig) : Prop :=
  c.chainage ≤ maxChainage ∧ (∀ k, c.cable = some k → k ≤ 65535) ∧ c.serial ≠ some 0#32

/-- Segment fields in the ranges of R1, the turn-off threshold at least 2 V under turn-on (R3). -/
def SegmentConfig.Legal (c : SegmentConfig) : Prop :=
  (20 ≤ c.turnOn ∧ c.turnOn ≤ 60) ∧ (18 ≤ c.turnOff ∧ c.turnOff + 2 ≤ c.turnOn) ∧ c.turnaround ≤ 4095 ∧
  (100 ≤ c.cableConstant ∧ c.cableConstant ≤ 1500) ∧ c.tolerance ≤ 2000 ∧ c.testThreshold ≤ 255 ∧
  (1 ≤ c.ringPeriod ∧ c.ringPeriod ≤ 40) ∧ c.ringOnTime ≤ c.ringPeriod ∧ (10 ≤ c.ringTimeout ∧ c.ringTimeout ≤ 300)

/-- A window with its base a multiple of its size, in range (R95, R110). -/
def Window.Legal (w : Window) : Prop :=
  w.base ≤ maxChainage ∧ w.base % w.size = 0 ∧ (5 ≤ w.overflow ∧ w.overflow ≤ 120) ∧ w.label ≤ 255

/-- A classifier entry in range (R44, R53). -/
def ClassEntry.Legal (e : ClassEntry) : Prop := e.offset ≤ 23 ∧ e.weight ≤ 200

/-- Defaults in range (R169). -/
def Defaults.Legal (d : Defaults) : Prop := d.weight ≤ 200 ∧ 5 ≤ d.overflow ∧ d.overflow ≤ 120

/-- Link parameters in range (R154, R164). -/
def LinkConfig.Legal (c : LinkConfig) : Prop := (1 ≤ c.depth ∧ c.depth ≤ 8) ∧ 1 ≤ c.lossTime ∧ c.lossTime ≤ 30

/-- Every stored value lies in the range its write command gives it (R159). -/
structure Tables.Legal (t : Tables) : Prop where
  posts : ∀ (g : SegId) (a : Addr) c, (t.posts[g])[a] = some c → c.Legal
  segments : ∀ g : SegId, (t.segments[g]).Legal
  windows : ∀ w : WindowNo, (t.windows[w]).Legal
  classes : ∀ e : EntryNo, (t.classes[e]).Legal
  defaults : t.defaults.Legal
  links : ∀ l, (t.links.get l).Legal

/-- The tables, those in the memory and those of a save in progress are in range (R159, R171, R175). -/
def TablesInRange (s : State) : Prop :=
  s.tables.Legal ∧ s.memory.tables.Legal ∧ ∀ v, s.manager.save = some v → v.snapshot.Legal

/-! ### Commands of a link that is served -/

/-- A link whose commands are taken in the ordinary way: the part RUNNING and the link UP (R157, R175). -/
abbrev State.serves (s : State) (l : Link) : Prop := s.supply.phase = .running ∧ (s.link l).up = true

/-- The state with a command's response queued on an UP link, its link-loss timer restarted (R157, R158). -/
def replied (l : Link) (tag : Tag) (k : CommandType) (r : Result) (s : State) : State :=
  respond l tag k r (restartLoss l s)

/-- A command of an UP link is refused with a code, and changes nothing more (R158, R159). -/
abbrev RefusedWith (i : Instr) (l : Link) (tag : Tag) (k : CommandType) (code : RefusalCode) (s : State) : Prop :=
  exec i s = .next (replied l tag k (.refused code) s)

/-- A write's expected revision is absent or current (R166). -/
abbrev State.current (s : State) (expected : Option Counter) : Prop := ∀ r, expected = some r → r = s.manager.revision

/-! ### Notices -/

/-- A link that is UP with room for a notice behind `k` more blocks (R160). -/
abbrev State.room (s : State) (l : Link) (k : Nat) : Prop :=
  (s.link l).up = true ∧ (s.link l).queue.length + k < queueRoom

/-- A notice goes to both links in a change from `s` to `t`, behind at most `k` other blocks: it stands in the output
queue of each link that is UP with room for it (R160). -/
abbrev NoticeReaches (n : Notice) (k : Nat) (s t : State) : Prop :=
  ∀ l, s.room l k → Block.notice n ∈ (t.link l).queue

/-- A notice has gone to a link in the state it leaves: it stands in the link's output queue, or the queue was full and
the overrun flag is set (R160). -/
abbrev Told (n : Notice) (l : Link) (t : State) : Prop := Block.notice n ∈ (t.link l).queue ∨ (t.link l).overrun = true

/-- A link record that a change touches only by the notices it queues there (R160). -/
structure OnlySent (r r' : LinkRec) : Prop where
  same : r' = { r with queue := r'.queue, overrun := r'.overrun }
  queue : r.queue <+: r'.queue

/-- Every link is touched only by notices. -/
def LinksOnlySent (s t : State) : Prop := ∀ l, OnlySent (s.link l) (t.link l)

/-! ### The other calls -/

/-- A call record that events of other calls touch: by its offers, its move between QUEUED and OFFERED, and a grant
of its path (R100, R102, R116). -/
structure OtherCallKept (c c' : Call) : Prop where
  same : c' = { c with state := c'.state, offered := c'.offered, pathHeld := c'.pathHeld }
  state : c'.state = c.state ∨ (c.state = .queued ∧ c'.state = .offered) ∨ (c.state = .offered ∧ c'.state = .queued)
  held : c.pathHeld = true → c'.pathHeld = true

/-- Every record but `n` is as it was, but for its offers and a grant of its path. -/
def OthersKept (n : CallNo) (s t : State) : Prop :=
  ∀ m, m ≠ n → ((s.call m = none → t.call m = none) ∧
    ∀ c, s.call m = some c → ∃ c', t.call m = some c' ∧ OtherCallKept c c')

/-- Every record but `n` is as it was, but for a grant of its path. -/
def OthersGranted (n : CallNo) (s t : State) : Prop :=
  ∀ m, m ≠ n → (t.call m = s.call m ∨ t.call m = (s.call m).map (fun c => { c with pathHeld := true }))

/-! ### Writes of a post's configured part -/

/-- The carriageway code of a post's carriageway (12.4). -/
def Carriageway.code : Carriageway → CarriagewayCode
  | .one => .one
  | .two => .two

/-- The fields a WRITE_POST sends to store a configured part, with the serial as sent (R167). -/
def PostConfig.fields (c : PostConfig) (serial : Option Serial) : PostFields :=
  { chainage := c.chainage, carriageway := .named c.carriageway.code, side := .named c.side, road := .named c.road,
    cable := c.cable, serial := serial }

/-- What an accepted write of a post's configured part does, from the response on: the part is stored, the location
part is reset with its verification derived afresh, POST_MISMATCH goes out on a change to or from a mismatch state,
then TABLES_CHANGED with the revision one higher; and nothing else changes (R61, R66, R165 to R167). -/
structure PostWritten (source : Link) (p : PostId) (new : Option PostConfig) (s t : State) : Prop where
  stored : t.tables = { s.tables with posts := s.tables.posts.set p.seg ((s.tables.posts[p.seg]).set p.addr new) }
  location : t.post p = { s.post p with filtered := none, mismatch := 0, lastSample := none,
                                        verification := (t.post p).verification }
  differ : (∃ x y, new.bind (·.serial) = some x ∧ (s.post p).lastSerial = some y ∧ y ≠ 0#32 ∧ x ≠ y) →
    (t.post p).verification = .identityMismatch
  agree : (¬∃ x y, new.bind (·.serial) = some x ∧ (s.post p).lastSerial = some y ∧ y ≠ 0#32 ∧ x ≠ y) →
    (t.post p).verification = .unranged
  others : ∀ q, q ≠ p → t.post q = s.post q
  revision : t.manager = { s.manager with revision := s.manager.revision + 1 }
  links : LinksOnlySent s t
  rest : t = { s with tables := t.tables, posts := t.posts, manager := t.manager, links := t.links }
  mismatch : (t.post p).verification ≠ (s.post p).verification →
    ((t.post p).verification.mismatch = true ∨ (s.post p).verification.mismatch = true) →
    NoticeReaches (.postMismatch p (t.post p).verification (s.post p).verification none none (s.post p).lastSerial
      (new.bind (·.serial))) 0 s t
  counted : NoticeReaches (.tablesChanged (s.manager.revision + 1) (.post p) (.link source)) 1 s t

/-! ### A segment leaving service -/

/-- A post record as R14 leaves it, its alarms and F cleared (R14, R51, R60). -/
structure OutOfService (r r' : Post) : Prop where
  presence : r'.presence = .unknown
  hook : r'.hook = .unknown
  missed : r'.missed = 0
  selected : r'.selected = false
  ringing : r'.ringing = false
  echo : r'.echo = false
  alarms : r'.alarms = []
  filtered : r'.filtered = none
  lastSerial : r'.lastSerial = r.lastSerial
  lastFormat : r'.lastFormat = r.lastFormat
  barred : r'.barred = r.barred

/-- A segment that leaves service for a feed state out of service: its posts and its Poll Scheduler as R14 gives, its
line tests over, its calls met by line loss as R88 gives, the other segments' lines and posts as they were, and
SEGMENT_STATE the last notice on each UP link, or its overrun flag set (R14 to R16). -/
structure LeavesService (g : SegId) (new : FeedState) (cause : SegmentCause) (s t : State) : Prop where
  feed : (t.line g).feed = new
  filter : (t.line g).underFilter = none
  posts : ∀ a, OutOfService (s.post ⟨g, a⟩) (t.post ⟨g, a⟩)
  queue : (t.poll g).queue = []
  sent : (t.poll g).sent = none
  sweeps : (t.poll g).discovery = none ∧ (t.poll g).isolation = none ∧ (t.poll g).isolationPosition = none
  test : (t.path g).test = none
  owned : CallPartsMatch s → ∀ n c, s.call n = some c → c.post.seg = g →
    (c.state = .answered ∨ c.state = .connected ∨ c.state = .held) →
    ∃ c', t.call n = some c' ∧ c'.state = .lineLost ∧ c'.lineDown = true ∧ c'.pathHeld = false ∧ c'.owner = c.owner ∧
      c'.ownerChannel = c.ownerChannel ∧ c'.joinedChannel = c.joinedChannel
  waiting : CallPartsMatch s → ∀ n c, s.call n = some c → c.post.seg = g → c.state.waiting = true →
    ∃ c', t.call n = some c' ∧ c'.state.waiting = true ∧ c'.lineDown = true
  links : ∀ l, LinkKept (s.link l) (t.link l)
  told : ∀ l, (s.link l).up = true → (t.link l).overrun = true ∨
    (t.link l).queue.getLast? = some (.notice (.segmentState g new (s.line g).feed cause (t.line g).trips))
  lines : ∀ k, k ≠ g → t.line k = s.line k
  others : ∀ p, p.seg ≠ g → PostKept (s.post p) (t.post p)
  rest : t.supply = s.supply ∧ t.clock = s.clock ∧ t.manager = s.manager ∧ t.tables = s.tables ∧ t.memory = s.memory ∧
    t.loadFailed = s.loadFailed ∧ t.onBattery = s.onBattery ∧ t.framed = s.framed ∧ t.pending = s.pending

/-- A move of a segment from one state out of service to another: SEGMENT_STATE goes to both links, the post records of
the segment are in the condition of R14, their F and what R14 keeps as they were, its Poll Scheduler addresses nothing, and
nothing but its own feed fields changes besides (R14 to R16). -/
structure OutOfServiceMove (g : SegId) (new : FeedState) (cause : SegmentCause) (s t : State) : Prop where
  told : NoticeReaches (.segmentState g new (s.line g).feed cause (t.line g).trips) 0 s t
  links : LinksOnlySent s t
  posts : ∀ a, t.post ⟨g, a⟩ = { s.post ⟨g, a⟩ with presence := .unknown, hook := .unknown, missed := 0,
                                                    selected := false, ringing := false, echo := false, alarms := [] }
  poll : (t.poll g).queue = [] ∧ (t.poll g).sent = none ∧ (t.poll g).discovery = none ∧ (t.poll g).isolation = none ∧
    (t.poll g).isolationPosition = none ∧ (t.poll g).tempo = .normal
  path : t.path g = s.path g
  segments : ∀ k, k ≠ g → t.segment k = s.segment k
  others : ∀ p, p.seg ≠ g → t.post p = s.post p
  rest : t = { s with timebase := t.timebase, segments := t.segments, posts := t.posts, links := t.links }

end Sys2Proof.Machine
end

