-- ==== Sys2Proof/Certificates/Slice0/Obligations.lean ====
section
/-! DEFINITION. The statements for the provers. Throughout, a command is stated for a link that is UP in RUNNING
(`State.serves`); the state right after its response is queued is `replied`; the forms of a command on a link that is
DOWN, during LOADING and in reset are statements of their own, once for all commands. -/

open Sys2Proof Sys2Proof.Machine

/-! ### The step and the queue of rows -/

/-- A step takes the row at the front of the queue (the block's form of a step). -/
def Obligations.StepTakesTheFrontRow : Prop :=
  ∀ (c : Instr) (rest : List Instr) (s : State),
    step { s with pending := c :: rest } = exec c { s with pending := rest }

/-- With no row waiting, a step lets a millisecond of the timebase pass. The model's choice: log 2. -/
def Obligations.IdleStepLetsAMillisecondPass : Prop :=
  ∀ s : State, s.pending = [] → step s = .next { s with timebase := s.timebase + 1 }

/-- Every row has a next state, and leaves the rows waiting as they are. -/
def Obligations.EveryRowHasANextState : Prop :=
  ∀ (i : Instr) (s : State), ∃ t, exec i s = .next t ∧ t.pending = s.pending

/-! ### Reset -/

/-- The reset values the spec gives (R1, R17, R20, R21, R34, R72, R90, R112, R119, R154, R170, R173 to R175), read at a
POWER_ON reset that has just been left: the phase LOADING and the cause POWER_ON are the model's choice, log 4. -/
def Obligations.ResetLeavesEveryRecordAtItsResetValue : Prop :=
  let s := State.reset
  (s.supply.phase = .loading ∧ s.supply.cause = .powerOn ∧ s.clock.seconds = 0#32 ∧ s.clock.isSet = false ∧
    s.manager.lock = false ∧ s.queueLoad = false ∧ s.nextSequence = 0#16) ∧
  (∀ g, s.line g = { s.line g with feed := .off, trips := 0, startUp := false, underFilter := none, rePower := none,
                                   retry := none, feedOn := none } ∧
    (s.poll g).tempo = .normal ∧ (s.poll g).isolationPosition = none ∧ (s.poll g).sweepPosition = 0 ∧
    (s.poll g).queue = [] ∧ (s.poll g).discovery = none ∧ (s.poll g).isolation = none ∧ (s.poll g).covered = 0 ∧
    (s.path g).holder = .none ∧ (s.path g).grant = none ∧ (s.path g).test = none ∧ (s.path g).lastTest = none ∧
    (s.path g).holdTone = none) ∧
  (∀ p, s.post p = { presence := .unknown, hook := .unknown, missed := 0, lastSerial := none, lastFormat := none,
                     selected := false, ringing := false, echo := false, barred := false, filtered := none,
                     mismatch := 0, verification := .unranged, lastSample := none, alarms := [], call := none,
                     pending := false }) ∧
  (∀ n, s.call n = none) ∧ s.created = [] ∧ s.pendingList = [] ∧ s.abandonedList = [] ∧ s.requests = [] ∧
  ∀ l, (s.link l).up = false ∧ (s.link l).lossTimer = none ∧ (s.link l).mode = .accepting ∧ (s.link l).offers = 0 ∧
    (s.link l).transfers = 0 ∧ (s.link l).startedSent = false ∧ (s.link l).overrun = false ∧ (s.link l).queue = [] ∧
    (s.link l).assembly = [] ∧ ∀ k, (s.channel l k).use = .free ∧ (s.channel l k).waitingTone = none

/-- The state right after reset meets every invariant stated below. -/
def Obligations.ResetMeetsEveryInvariant : Prop :=
  let s := State.reset
  QueuesDistinct s ∧ TripsLegal s ∧ SomeAccepting s ∧ ResetHeld s ∧ CountsInRange s ∧ AbandonedOk s.abandonedList ∧
    CreationExact s ∧ OwnersMatch s ∧ CallPartsMatch s ∧ TablesInRange s ∧ IdleOutsideRunning s ∧ OffersMatch s ∧
    ChannelsMatch s ∧ PathsMatch s ∧ LoadMatches s

/-- While the part is held in reset, only the supply, the RESET pin and the time clock act. The model's reading of
R173: log 7. -/
def Obligations.HeldInResetOnlySupplyPinAndClockAct : Prop :=
  ∀ (i : Instr) (s : State), s.supply.phase = .inReset → i.actsInReset = false → exec i s = .next s

/-! ### What every command does -/

/-- A command on a DOWN link first brings the link UP, whatever the command: its link-loss timer starts, the link is
UP, STARTED is queued where it is due and LINK_STATE behind it, and the command is then taken as on an UP link. The
change that brings the link UP leaves alone what an event of calls and offers leaves alone (R152, R157, R161). -/
def Obligations.CommandOnADownLinkBringsItUp : Prop :=
  ∀ (i : Instr) (l : Link) (tag : Tag) (k : CommandType) (s : State), i.command = some (l, tag, k) →
    s.supply.phase ≠ .inReset → (s.link l).up = false → (s.link l).queue = [] →
    ∃ u, exec i s = exec i u ∧ (u.link l).up = true ∧
      (u.link l).lossTimer = some ⟨s.timebase, s.timebase + 1000 * (s.tables.links.get l).lossTime⟩ ∧
      ((if s.supply.phase = .running ∧ (s.link l).startedSent = false then [Block.notice s.startedNotice] else []) ++
        [Block.notice (.linkState (u.linkView .a) (u.linkView .b))]) <+: (u.link l).queue ∧
      NoticeReaches (.linkState (u.linkView .a) (u.linkView .b)) 0 s u ∧
      (∀ m c, u.call m = some c → CreationExact s → c.offered.get l = false →
        (c.state = .transferring → u.eligibleTransfer c l = false) ∧
        (c.state = .queued ∨ c.state = .offered → u.eligible c l = false)) ∧
      CallFrame (modLink l (fun r => { r with up := true, lossTimer := (u.link l).lossTimer }) s) u

/-- During LOADING every command but READ_STATUS is refused BUSY and changes nothing more (R159, R175). The one exception
is a command whose operands are at fault ahead of that test, which is refused MALFORMED: READ_CALL with a call number
outside 1 to 32; READ_POST or UNMUTE_POST with a post outside the segments 1 to 8 and addresses 1 to 16; READ_SEGMENT or
FEED with a segment outside 1 to 8; READ_WINDOW or WRITE_CLASS with a number above 7, READ_CLASS with one above 8;
WRITE_CLASS with a kind outside its two or an offset above 23; WRITE_LINK with a link other than A or B; and a block that
names no command. That these come before BUSY is WRITE_LINK's own table (R164) and, for the others, the order of the
sentences of their rules: the model's reading, logs 9 and 17. -/
def Obligations.LoadingRefusesEveryOtherCommand : Prop :=
  ∀ (i : Instr) (l : Link) (tag : Tag) (k : CommandType) (s : State), i.command = some (l, tag, k) →
    k ≠ .readStatus → s.supply.phase = .loading → (s.link l).up = true →
    (¬i.faultFirst → RefusedWith i l tag k .busy s) ∧ (i.faultFirst → RefusedWith i l tag k .malformed s)

/-- Every command of an UP link is answered, its response ahead of every notice it leads to; a refused command changes
nothing more; and a block that names no command is refused MALFORMED, in LOADING too, ahead of its BUSY: the model's
reading, log 17 (R157 to R159, R164). -/
def Obligations.EveryCommandIsAnswered : Prop :=
  (∀ (i : Instr) (l : Link) (tag : Tag) (k : CommandType) (s : State), i.command = some (l, tag, k) →
    s.supply.phase ≠ .inReset → (s.link l).up = true →
    ∃ r t, exec i s = .next t ∧ (∀ code, r = .refused code → t = replied l tag k r s) ∧
      ((s.link l).queue ++ [Block.response tag k r]) <+: (t.link l).queue) ∧
  ∀ (l : Link) (tag : Tag) (s : State), s.supply.phase ≠ .inReset → (s.link l).up = true →
    RefusedWith (.unknownCommand l tag) l tag .unknown .malformed s

/-! ### Status, time, lock -/

/-- READ_STATUS answers with the part's registers as they stand, and then clears the asking link's overrun flag;
during LOADING the revision, the image state and the configured fields are absent, and the unsaved-changes field with
them: the model's choice, log 8 (R160, R162, R172). -/
def Obligations.ReadStatusAnswersTheRegisters : Prop :=
  ∀ (l : Link) (tag : Tag) (s : State), s.supply.phase ≠ .inReset → (s.link l).up = true →
    ∃ d, exec (.readStatus l tag) s =
        .next (modLink l (fun r => { r with overrun := false })
          (replied l tag .readStatus (.done (.status d)) s)) ∧
      (d.running = true ↔ s.supply.phase = .running) ∧ d.cause = s.supply.cause ∧ d.clock = s.clock.seconds ∧
      d.clockSet = s.clock.isSet ∧ d.lock = s.manager.lock ∧ d.overrun = (s.link l).overrun ∧
      (CreationExact s → d.callsInUse = (allCalls.filter (fun n => (s.call n).isSome)).length) ∧
      d.waitingCount = (s.callsInOrder.filter (fun x => x.2.state.waiting)).length + s.pendingList.length ∧
      d.queueLoad = s.queueLoad ∧ d.pendingLength = s.pendingList.length ∧
      d.segments = allSegs.map (fun g => ⟨(s.line g).feed, (s.path g).holder⟩) ∧
      (d.linkA.up = (s.link .a).up ∧ d.linkA.mode = (s.link .a).mode ∧ d.linkA.offers = (s.link .a).offers) ∧
      (d.linkB.up = (s.link .b).up ∧ d.linkB.mode = (s.link .b).mode ∧ d.linkB.offers = (s.link .b).offers) ∧
      (s.supply.phase = .running →
        d.revision = some s.manager.revision ∧ d.image = some s.manager.image ∧
        d.defaultHome = some s.tables.defaults.home ∧ d.defaultOverflow = some s.tables.defaults.overflow ∧
        d.defaultWeight = some s.tables.defaults.weight ∧
        (d.linkA.depth = some s.tables.links.a.depth ∧ d.linkA.lossTime = some s.tables.links.a.lossTime) ∧
        (d.linkB.depth = some s.tables.links.b.depth ∧ d.linkB.lossTime = some s.tables.links.b.lossTime) ∧
        (∀ r, s.manager.image = .valid r → d.unsaved = some (decide (s.manager.revision ≠ r))) ∧
        (∀ v, s.manager.image = .saving → s.manager.save = some v →
          d.unsaved = some (decide (s.manager.revision ≠ v.revision))) ∧
        (s.manager.image = .invalid → d.unsaved = some true)) ∧
      (s.supply.phase = .loading →
        d.revision = none ∧ d.image = none ∧ d.unsaved = none ∧ d.defaultHome = none ∧ d.defaultOverflow = none ∧
        d.defaultWeight = none ∧ d.linkA.depth = none ∧ d.linkA.lossTime = none ∧ d.linkB.depth = none ∧
        d.linkB.lossTime = none)

/-- SET_TIME sets the clock and its flag (the mark of the next whole second stays: the model's choice, log 23);
LOCK_STRUCTURE sets the structure lock; neither changes anything else (R163, R170). -/
def Obligations.SetTimeAndLockSetTheirRegisters : Prop :=
  ∀ (l : Link) (tag : Tag) (s : State), s.serves l →
    (∀ v : Seconds, exec (.setTime l tag v) s =
      .next { replied l tag .setTime (.done .empty) s with clock := { s.clock with seconds := v, isSet := true } }) ∧
    exec (.lockStructure l tag) s =
      .next { replied l tag .lockStructure (.done .empty) s with manager := { s.manager with lock := true } }

/-! ### Reads -/

/-- LIST_CALLS, READ_CALL, LIST_ABANDONED, LIST_PENDING, READ_POST and READ_SEGMENT answer with the lists and the
records as they stand, and refuse a number out of range or a reference that names no call (R19, R22, R92, R93). The
deadlines of READ_CALL are given as the whole seconds left: the model's choice, log 8. A summary holds the call's
whole record, of which its bytes carry R92's list: the model's reading, log 31. The feed voltage is the reading held
from the last row that carried one, held at 63: the model's choice, log 15. -/
def Obligations.ReadsAnswerTheRecords : Prop :=
  ∀ (l : Link) (tag : Tag) (s : State), s.serves l →
    exec (.listCalls l tag) s = .next (replied l tag .listCalls (.done (.calls
      ((s.waitingOrder ++ s.callsInOrder.filter (fun x => x.2.state.owned)).map (fun x => ⟨x.1, x.2⟩)))) s) ∧
    exec (.listAbandoned l tag) s = .next (replied l tag .listAbandoned (.done (.abandoned s.abandonedList)) s) ∧
    exec (.listPending l tag) s = .next (replied l tag .listPending (.done (.pendingPosts s.pendingList)) s) ∧
    (∀ c, callNumberOf c.number = none → RefusedWith (.readCall l tag c) l tag .readCall .malformed s) ∧
    (∀ c, callNumberOf c.number ≠ none → s.lookup c = none →
      RefusedWith (.readCall l tag c) l tag .readCall .noSuchCall s) ∧
    (∀ c n r, callNumberOf c.number = some n → s.call n = some r → r.sequence = c.sequence →
      ∃ d, exec (.readCall l tag c) s = .next (replied l tag .readCall (.done (.call d)) s) ∧
        d.number = n ∧ d.call = r ∧ d.overflowLeft = r.overflowAt.map (fun t => (t - s.timebase) / 1000) ∧
        d.ringLeft = r.ringDeadline.map (fun t => (t - s.timebase) / 1000) ∧
        (r.state.owned = true → d.place = none) ∧
        (r.state.waiting = true → CreationExact s → ∃ k, d.place = some (k + 1) ∧ s.waitingOrder[k]? = some (n, r))) ∧
    (∀ p q, postOf p = some q → exec (.readPost l tag p) s = .next (replied l tag .readPost (.done (.post
      { config := s.postConfig q, post := s.post q, probable := s.probablePost q,
        place := (s.pendingList.findIdx? (fun e => e.post = q)).map (· + 1) })) s)) ∧
    (∀ p, postOf p = none → RefusedWith (.readPost l tag p) l tag .readPost .malformed s) ∧
    (∀ n g, segmentOf n = some g → exec (.readSegment l tag n) s = .next (replied l tag .readSegment (.done (.segment
      { config := s.segmentConfig g, feed := (s.line g).feed, trips := (s.line g).trips, tempo := (s.poll g).tempo,
        startUp := (s.line g).startUp, holder := (s.path g).holder, lastTest := (s.path g).lastTest,
        isolationPosition := (s.poll g).isolationPosition, volts := min 63 (s.line g).volts,
        overLimit := (s.line g).overLimit })) s)) ∧
    ∀ n, segmentOf n = none → RefusedWith (.readSegment l tag n) l tag .readSegment .malformed s

/-- READ_CLASS, as R54 states it whole: an entry as stored, with DEFAULT the default class weight, MALFORMED outside
both, BUSY during LOADING, DONE otherwise with no change of state; the alarm sets in READ_POST's answer, the class of a
call in READ_CALL's. -/
def Obligations.ReadClassAnswersTheEntry : Prop :=
  ∀ (l : Link) (tag : Tag) (s : State), (s.link l).up = true →
    (s.supply.phase = .running →
      (∀ e : EntryNo, exec (.readClass l tag e.val) s =
        .next (replied l tag .readClass (.done (.classEntry s.tables.classes[e])) s)) ∧
      exec (.readClass l tag 8) s =
        .next (replied l tag .readClass (.done (.defaultWeight s.tables.defaults.weight)) s) ∧
      (∀ e, 8 < e → RefusedWith (.readClass l tag e) l tag .readClass .malformed s) ∧
      (∀ p q, postOf p = some q → ∃ d, exec (.readPost l tag p) s =
        .next (replied l tag .readPost (.done (.post d)) s) ∧ d.post.alarms = (s.post q).alarms) ∧
      ∀ c n r, s.lookup c = some (n, r) → ∃ d, exec (.readCall l tag c) s =
        .next (replied l tag .readCall (.done (.call d)) s) ∧ d.call.cls = r.cls) ∧
    (s.supply.phase = .loading → ∀ e, e ≤ 8 → RefusedWith (.readClass l tag e) l tag .readClass .busy s)

/-- READ_WINDOW, as R111 states it whole: the window as stored with the first and last chainage of its block, whatever
the modes and the lock; MALFORMED outside 0 to 7; BUSY during LOADING; no change of state; the default home link and
overflow time in READ_STATUS's answer. -/
def Obligations.ReadWindowAnswersTheWindow : Prop :=
  ∀ (l : Link) (tag : Tag) (s : State), (s.link l).up = true →
    (s.supply.phase = .running →
      (∀ w : WindowNo, exec (.readWindow l tag w.val) s = .next (replied l tag .readWindow
        (.done (.window s.tables.windows[w]
          ((s.tables.windows[w]).base - (s.tables.windows[w]).base % 2 ^ (10 + (s.tables.windows[w]).sizeCode.val))
          ((s.tables.windows[w]).base - (s.tables.windows[w]).base % 2 ^ (10 + (s.tables.windows[w]).sizeCode.val) +
            2 ^ (10 + (s.tables.windows[w]).sizeCode.val) - 1))) s)) ∧
      (∀ w, 8 ≤ w → RefusedWith (.readWindow l tag w) l tag .readWindow .malformed s) ∧
      ∃ d, exec (.readStatus l tag) s = .next (modLink l (fun r => { r with overrun := false })
          (replied l tag .readStatus (.done (.status d)) s)) ∧
        d.defaultHome = some s.tables.defaults.home ∧ d.defaultOverflow = some s.tables.defaults.overflow) ∧
    (s.supply.phase = .loading → ∀ w, w < 8 → RefusedWith (.readWindow l tag w) l tag .readWindow .busy s)

/-! ### The save -/

/-- SAVE_IMAGE takes its snapshot and erases the marker, or is refused BUSY during a save; IMAGE_WRITTEN leaves the
snapshot whole in the memory with its marker; SAVE_READ_BACK_END makes the image state VALID with the snapshot's
revision, so that the image can be loaded again, or INVALID, and sends SAVE_DONE; an event of no save changes nothing
(R171, R172, R175, R178). The size of the tables region is the part's own constant: the model's choice, log 5. -/
def Obligations.ASaveWritesItsSnapshot : Prop :=
  ∀ s : State,
    (∀ l tag, s.serves l → s.manager.image ≠ .saving → exec (.saveImage l tag) s =
      .next { replied l tag .saveImage (.done .empty) s with
        manager := { s.manager with image := .saving, save := some ⟨s.tables, s.manager.revision, .writing⟩ }
        memory := { s.memory with marker := 0xFFFFFFFF#32 } }) ∧
    (∀ l tag, s.serves l → s.manager.image = .saving → RefusedWith (.saveImage l tag) l tag .saveImage .busy s) ∧
    (∀ v, s.supply.phase ≠ .inReset → s.manager.save = some v → v.stage = .writing → exec .imageWritten s =
      .next { s with
        memory := { marker := 0xA55A3CC3#32, revision := v.revision, size := imageSize, tables := v.snapshot,
                    crcGood := true }
        manager := { s.manager with save := some { v with stage := .readingBack } } }) ∧
    (∀ v fault, s.supply.phase ≠ .inReset → s.manager.save = some v → v.stage = .readingBack →
      exec (.saveReadBackEnd fault) s =
        if s.memory.marker = 0xA55A3CC3#32 ∧ s.memory.size = imageSize ∧ s.memory.crcGood = true ∧ fault = false then
          .next (sendBoth (.saveDone (some v.revision))
            { s with manager := { s.manager with image := .valid v.revision, save := none }, loadFailed := false })
        else .next (sendBoth (.saveDone none) { s with manager := { s.manager with image := .invalid, save := none } })) ∧
    ((∀ v, s.manager.save = some v → v.stage = .readingBack) → exec .imageWritten s = .next s) ∧
    ((∀ v, s.manager.save = some v → v.stage = .writing) → ∀ fault, exec (.saveReadBackEnd fault) s = .next s)

/-! ### Writes of the tables -/

/-- An accepted WRITE_POST stores the configured part it sends (a serial of 0 absent), an accepted CLEAR_POST stores
none, and both do what a write of a configured part does (R61, R66, R165 to R167, R170). -/
def Obligations.PostWritesStoreAndResetTheLocation : Prop :=
  ∀ (s : State) (l : Link) (tag : Tag), s.serves l → ∀ p q, postOf p = some q → ∀ expected, s.current expected →
    (∀ (c : PostConfig) (serial : Option Serial), c.Legal → c.serial = serial.filter (· ≠ 0#32) →
      (s.manager.lock = true → ∃ old, s.postConfig q = some old ∧ { old with serial := none } = { c with serial := none }) →
      ∃ t, exec (.writePost l tag expected p (c.fields serial)) s = .next t ∧
        PostWritten l q (some c) (replied l tag .writePost (.done .empty) s) t) ∧
    (s.manager.lock = false →
      ∃ t, exec (.clearPost l tag expected p) s = .next t ∧
        PostWritten l q none (replied l tag .clearPost (.done .empty) s) t)

/-- An accepted WRITE_SEGMENT stores every field clamped, reports it, clears every F of the segment where T or K
changed, acts on the feed monitor at the present voltage, and counts one change: in service it moves the under-voltage
filter, FEED_LOST and POWERING it moves as the crossings ask, starting a stopped re-power timer, and the Poll Scheduler of
a segment that stays where it is goes on as it was (R3, R4, R6, R7, R62, R132, R165, R166, R168). The present voltage is
the reading held from the last row that carried one: the model's choice, log 15. -/
def Obligations.WriteSegmentStoresClampedFields : Prop :=
  ∀ (s : State) (l : Link) (tag : Tag), s.serves l → ∀ n g, segmentOf n = some g → ∀ (f : SegmentFields) (e : Bool),
    f.feedEnabled = .named e → ∀ expected, s.current expected →
    ∃ c : SegmentConfig,
      (c.feedEnabled = e ∧ c.turnOn = max 20 (min 60 f.turnOn) ∧ c.turnOff = max 18 (min (c.turnOn - 2) f.turnOff) ∧
        c.turnaround = min 4095 f.turnaround ∧ c.cableConstant = max 100 (min 1500 f.cableConstant) ∧
        c.tolerance = min 2000 f.tolerance ∧ c.testThreshold = min 255 f.testThreshold ∧
        c.ringPeriod = max 1 (min 40 f.ringPeriod) ∧ c.ringOnTime = min c.ringPeriod f.ringOnTime ∧
        c.ringTimeout = max 10 (min 300 f.ringTimeout)) ∧
      let old := s.segmentConfig g
      let u := s.line g
      let scaled := c.turnaround ≠ old.turnaround ∨ c.cableConstant ≠ old.cableConstant
      let w := replied l tag .writeSegment (.done (.segmentStored c)) s
      (s.manager.lock = true → ¬scaled) →
      ∃ t, exec (.writeSegment l tag expected n f) s = .next t ∧
        t.tables = { s.tables with segments := s.tables.segments.set g c } ∧
        t.manager = { s.manager with revision := s.manager.revision + 1 } ∧
        (∀ a, (t.post ⟨g, a⟩).filtered = if scaled then none else (s.post ⟨g, a⟩).filtered) ∧
        (∀ p, p.seg ≠ g → t.post p = s.post p) ∧
        (u.feed.inService = true →
          t.line g = { u with underFilter :=
            if old.turnOff ≤ u.volts ∧ u.volts < c.turnOff then some (u.underFilter.getD (s.timebase + 200))
            else if u.volts < old.turnOff ∧ c.turnOff ≤ u.volts then none else u.underFilter } ∧
          ∀ a, t.post ⟨g, a⟩ = { s.post ⟨g, a⟩ with filtered := (t.post ⟨g, a⟩).filtered }) ∧
        ((t.line g).feed = u.feed → t.poll g = s.poll g) ∧
        (u.feed.powered = false → t.line g = u) ∧
        (u.feed = .feedLost → if u.volts ≤ old.turnOn ∧ c.turnOn < u.volts then
            (t.line g).feed = .powering ∧ (t.line g).rePower = some (s.timebase + 2000)
          else (t.line g).feed = .feedLost) ∧
        (u.feed = .powering → if old.turnOff ≤ u.volts ∧ u.volts < c.turnOff ∧ u.rePower.isSome = true then
            (t.line g).feed = .feedLost ∧ (t.line g).rePower = none
          else (t.line g).feed = .powering ∧ (t.line g).rePower =
            if u.volts ≤ old.turnOn ∧ c.turnOn < u.volts then some (u.rePower.getD (s.timebase + 2000)) else u.rePower) ∧
        (∀ k, k ≠ g → t.segment k = s.segment k) ∧ (t.path g) = s.path g ∧
        NoticeReaches (.tablesChanged (s.manager.revision + 1) (.segment g) (.link l)) 1 w t ∧ LinksOnlySent w t ∧
        t = { w with tables := t.tables, manager := t.manager, posts := t.posts, segments := t.segments,
                     links := t.links }

/-- Accepted WRITE_WINDOW, WRITE_CLASS and WRITE_DEFAULTS replace their entry, rounded down and clamped as their rules
give, report it as stored, count one change, send TABLES_CHANGED, and change nothing else; under the structure lock a
WRITE_WINDOW that repeats its window exactly as stored is accepted too: the model's reading, log 28 (R53, R110, R165, R166, R169, R170). -/
def Obligations.EntryWritesStoreClampedFields : Prop :=
  ∀ (l : Link) (tag : Tag) (expected : Option Counter) (s : State), s.serves l → s.current expected →
    (∀ (w : WindowNo) (f : WindowFields) (code : Fin 8) (way : CarriagewayCode) (home : Link),
      f.sizeCode = code.val → f.carriageway = .named way → f.home = .named home →
      f.base ≤ 1048575 → f.label ≤ 255 →
      let v : Window := { enabled := f.enabled, base := f.base - f.base % 2 ^ (10 + code.val), sizeCode := code,
                          carriageway := way, home := home, overflow := max 5 (min 120 f.overflow),
                          classMask := f.classMask, label := f.label }
      (s.manager.lock = true → v = s.tables.windows[w] ∧ f.base = v.base ∧ f.overflow = v.overflow) →
      exec (.writeWindow l tag expected w.val f) s =
        .next (sendBoth (.tablesChanged (s.manager.revision + 1) (.window w) (.link l))
          { replied l tag .writeWindow (.done (.windowStored v)) s with
            tables := { s.tables with windows := s.tables.windows.set w v }
            manager := { s.manager with revision := s.manager.revision + 1 } })) ∧
    (∀ (e : EntryNo) (f : ClassFields) (kind : EntryKind), f.kind = .named kind → f.offset ≤ 23 →
      let v : ClassEntry := { enabled := f.enabled, kind := kind, offset := f.offset, mask := f.mask, crc := f.crc,
                              chain := f.chain, inverse := f.inverse, reports := f.reports, weight := min 200 f.weight }
      exec (.writeClass l tag expected e.val f) s =
        .next (sendBoth (.tablesChanged (s.manager.revision + 1) (.cls e) (.link l))
          { replied l tag .writeClass (.done (.classStored v)) s with
            tables := { s.tables with classes := s.tables.classes.set e v }
            manager := { s.manager with revision := s.manager.revision + 1 } })) ∧
    ∀ (home : Link) (weight overflow : Nat),
      let d : Defaults := { home := home, weight := min 200 weight, overflow := max 5 (min 120 overflow) }
      exec (.writeDefaults l tag expected (.named home) weight overflow) s =
        .next (sendBoth (.tablesChanged (s.manager.revision + 1) .defaults (.link l))
          { replied l tag .writeDefaults (.done (.defaultsStored d)) s with
            tables := { s.tables with defaults := d }
            manager := { s.manager with revision := s.manager.revision + 1 } })

/-- An accepted WRITE_LINK stores depth and link-loss time clamped and counts one change. An UP link named by it has
its timer moved, measured from its last valid message, or goes DOWN at once where that moment has passed, its queue
emptied; a DOWN link stays DOWN, and the other link's supervision stands. On a named link that stays UP, of the calls
in OFFERED state offered to it the first in the waiting order keep their offers, as many as the new depth, and each
behind them loses its own, with CALL_WITHDRAWN and reason DEPTH; and no call that is eligible for it is left
unoffered, so that a raised depth is filled. TABLES_CHANGED is the last notice on each link left UP, or its overrun
flag is set (R109, R157, R164 to R166). -/
def Obligations.WriteLinkMovesTheTimer : Prop :=
  ∀ (l n : Link) (tag : Tag) (expected : Option Counter) (depth lossTime : Nat) (s : State),
    s.serves l → s.current expected →
    let c : LinkConfig := { depth := max 1 (min 8 depth), lossTime := max 1 (min 30 lossTime) }
    let w := replied l tag .writeLink (.done (.linkStored c)) s
    ∃ t, exec (.writeLink l tag expected (.named n) depth lossTime) s = .next t ∧
      t.tables = { s.tables with links := s.tables.links.set n c } ∧
      t.manager = { s.manager with revision := s.manager.revision + 1 } ∧
      (∀ m, (w.link n).lossTimer = some m → (s.link n).up = true →
        if m.since + 1000 * c.lossTime < s.timebase then
          (t.link n).up = false ∧ (t.link n).lossTimer = none ∧ (t.link n).queue = []
        else (t.link n).up = true ∧ (t.link n).lossTimer = some ⟨m.since, m.since + 1000 * c.lossTime⟩ ∧
          (w.link n).queue <+: (t.link n).queue) ∧
      ((s.link n).up = false → (t.link n).up = false ∧ ((s.link n).lossTimer = none → (t.link n).lossTimer = none)) ∧
      (CreationExact s → (t.link n).up = true →
        (∀ k x, (s.waitingOrder.filter (fun x => x.2.state = .offered && x.2.offered.get n))[k]? = some x →
          (k < c.depth → ∃ d, t.call x.1 = some d ∧ d.offered.get n = true) ∧
          (c.depth ≤ k → Told (.callWithdrawn (x.2.ref x.1) x.2.post .depth) n t ∧
            (OffersMatch s → ∃ d, t.call x.1 = some d ∧ d.offered.get n = false))) ∧
        ∀ m d, t.call m = some d → d.state = .queued ∨ d.state = .offered → d.offered.get n = false →
          t.eligible d n = false) ∧
      LinkKept (w.link n.other) (t.link n.other) ∧
      (∀ k, (t.link k).up = true →
        (t.link k).queue.getLast? =
          some (.notice (.tablesChanged (s.manager.revision + 1) (.link n) (.link l))) ∨ (t.link k).overrun = true) ∧
      t.supply = s.supply ∧ t.clock = s.clock ∧ t.timebase = s.timebase ∧ t.memory = s.memory ∧
      (∀ g, t.line g = s.line g) ∧ ∀ p, PostKept (s.post p) (t.post p)

/-! ### Refusals, in the order of each command's checks -/

/-- ANSWER and DECLINE are refused by the first condition of their tables that holds (R103, R106). -/
def Obligations.AnswerAndDeclineRefusals : Prop :=
  ∀ (l : Link) (tag : Tag) (c : CallArg) (k : Nat) (s : State), s.serves l →
    let answer := fun code => RefusedWith (.answer l tag c k) l tag .answer code s
    let decline := fun code => RefusedWith (.decline l tag c) l tag .decline code s
    (callNumberOf c.number = none ∨ channelOf k = none → answer .malformed) ∧
    (callNumberOf c.number ≠ none → channelOf k ≠ none → s.lookup c = none → answer .noSuchCall) ∧
    (∀ n r y, s.lookup c = some (n, r) → channelOf k = some y →
      (r.state.owned = true → answer .taken) ∧
      (r.state.owned = false → r.offered.get l = false → answer .notOffered) ∧
      (r.state.owned = false → r.offered.get l = true → (s.channel l y).use ≠ .free → answer .channelBusy)) ∧
    (callNumberOf c.number = none → decline .malformed) ∧
    (callNumberOf c.number ≠ none → s.lookup c = none → decline .noSuchCall) ∧
    ∀ n r, s.lookup c = some (n, r) →
      (r.state.owned = true → decline .taken) ∧
      (r.state.owned = false → r.offered.get l = false → decline .notOffered)

/-- HOLD, RETRIEVE, RELEASE, JOIN and LEAVE are refused by the first condition of their rules that holds (R86, R122 to
R126). -/
def Obligations.OwnedCallRefusals : Prop :=
  ∀ (l : Link) (tag : Tag) (c : CallArg) (k : Nat) (s : State), s.serves l →
    let hold := fun code => RefusedWith (.hold l tag c) l tag .hold code s
    let retrieve := fun code => RefusedWith (.retrieve l tag c) l tag .retrieve code s
    let release := fun code => RefusedWith (.release l tag c) l tag .release code s
    let join := fun code => RefusedWith (.join l tag c k) l tag .join code s
    let leave := fun code => RefusedWith (.leave l tag c) l tag .leave code s
    (callNumberOf c.number = none →
      hold .malformed ∧ retrieve .malformed ∧ release .malformed ∧ join .malformed ∧ leave .malformed) ∧
    (channelOf k = none → join .malformed) ∧
    (callNumberOf c.number ≠ none → s.lookup c = none →
      hold .noSuchCall ∧ retrieve .noSuchCall ∧ release .noSuchCall ∧ (channelOf k ≠ none → join .noSuchCall) ∧
      leave .noSuchCall) ∧
    ∀ n r, s.lookup c = some (n, r) →
      (r.owner ≠ some l → hold .notOwner ∧ retrieve .notOwner ∧ release .notOwner) ∧
      (r.owner = some l → r.state = .held ∨ r.state = .lineLost ∨ r.state = .ringing → hold .badState) ∧
      (r.owner = some l → r.state ≠ .held → retrieve .badState) ∧
      (∀ y, channelOf k = some y →
        (r.owner = none ∨ r.owner = some l ∨ r.state = .lineLost ∨ r.state = .ringing ∨ r.joinedChannel ≠ none ∨
          (s.link l).mode = .closed → join .badState) ∧
        (r.owner = some l.other → r.state ≠ .lineLost → r.state ≠ .ringing → r.joinedChannel = none →
          (s.link l).mode ≠ .closed → (s.channel l y).use ≠ .free → join .channelBusy)) ∧
      (r.joinedChannel = none ∨ r.owner ≠ some l.other → leave .badState)

/-- CALL_POST and TEST_POST are refused by the first condition of their tables that holds (R129, R137). -/
def Obligations.CallPostAndTestPostRefusals : Prop :=
  ∀ (l : Link) (tag : Tag) (p : PostArg) (k : Nat) (priority : Option Nat) (s : State), s.serves l →
    let place := fun code => RefusedWith (.callPost l tag p k priority) l tag .callPost code s
    let test := fun code => RefusedWith (.testPost l tag p) l tag .testPost code s
    (postOf p = none ∨ channelOf k = none → place .malformed) ∧
    (postOf p = none → test .malformed) ∧
    ∀ q, postOf p = some q →
      let down := (s.line q.seg).feed.inService = false
      let absent := (s.post q).presence ≠ .present
      let tested := ∃ t, (s.path q.seg).test = some t ∧ t.addr = q.addr
      let callBusy := (s.post q).call ≠ none ∨ (s.post q).pending = true ∨ (s.post q).hook = .off ∨ tested
      let testBusy := (s.post q).call ≠ none ∨ (s.post q).pending = true
      (∀ y, channelOf k = some y →
        ((s.link l).mode ≠ .accepting → place .badState) ∧
        ((s.link l).mode = .accepting → down → place .segmentDown) ∧
        ((s.link l).mode = .accepting → ¬down → absent → place .postAbsent) ∧
        ((s.link l).mode = .accepting → ¬down → ¬absent → callBusy → place .postBusy) ∧
        ((s.link l).mode = .accepting → ¬down → ¬absent → ¬callBusy → (s.channel l y).use ≠ .free →
          place .channelBusy) ∧
        ((s.link l).mode = .accepting → ¬down → ¬absent → ¬callBusy → (s.channel l y).use = .free →
          (∀ n, s.call n ≠ none) → place .busy)) ∧
      (down → test .segmentDown) ∧
      (¬down → absent → test .postAbsent) ∧
      (¬down → ¬absent → testBusy → test .postBusy) ∧
      (¬down → ¬absent → ¬testBusy → (s.path q.seg).test ≠ none → test .busy)

/-- HANDOVER, FEED and UNMUTE_POST are refused by the first condition of their tables that holds (R13, R43, R143). -/
def Obligations.HandoverFeedAndUnmuteRefusals : Prop :=
  ∀ (l : Link) (tag : Tag) (s : State), s.serves l →
    ((s.link l).mode = .closed →
      RefusedWith (.handoverFinish l tag) l tag .handover .badState s ∧
      RefusedWith (.handoverImmediate l tag) l tag .handover .badState s) ∧
    ((s.link l).mode ≠ .closed → (s.link l.other).up = false ∨ (s.link l.other).mode ≠ .accepting →
      RefusedWith (.handoverFinish l tag) l tag .handover .noPeer s ∧
      RefusedWith (.handoverImmediate l tag) l tag .handover .noPeer s) ∧
    (∀ n, segmentOf n = none →
      RefusedWith (.feedOff l tag n) l tag .feed .malformed s ∧ RefusedWith (.feedOn l tag n) l tag .feed .malformed s ∧
      RefusedWith (.feedReEnable l tag n) l tag .feed .malformed s) ∧
    (∀ n g, segmentOf n = some g →
      ((s.line g).feed = .locked →
        RefusedWith (.feedOff l tag n) l tag .feed .badState s ∧ RefusedWith (.feedOn l tag n) l tag .feed .badState s) ∧
      ((s.line g).feed ≠ .locked → RefusedWith (.feedReEnable l tag n) l tag .feed .badState s)) ∧
    (∀ p, postOf p = none → RefusedWith (.unmutePost l tag p) l tag .unmutePost .malformed s) ∧
    ∀ p q, postOf p = some q →
      ((s.line q.seg).feed = .isolating → RefusedWith (.unmutePost l tag p) l tag .unmutePost .busy s) ∧
      ((s.line q.seg).feed ≠ .isolating → (s.post q).presence ≠ .muted →
        RefusedWith (.unmutePost l tag p) l tag .unmutePost .badState s)

/-- The write commands are refused MALFORMED for a field out of range, then STALE where their expected revision is not
current, then LOCKED where the structure lock is set and protects what they would change (R53, R110, R164, R166 to
R170); a WRITE_WINDOW is LOCKED where a field as sent differs from the stored one: the model's reading, log 28. -/
def Obligations.WriteRefusals : Prop :=
  ∀ (l : Link) (tag : Tag) (expected : Option Counter) (s : State), s.serves l →
    (∀ p (f : PostFields), postOf p = none ∨ 1048575 < f.chainage ∨ (∀ w, f.carriageway ≠ .named w) ∨
        f.carriageway = .named .both ∨ (∀ x, f.side ≠ .named x) ∨ (∀ x, f.road ≠ .named x) ∨
        (∃ c, f.cable = some c ∧ 65535 < c) → RefusedWith (.writePost l tag expected p f) l tag .writePost .malformed s) ∧
    (∀ p, postOf p = none → RefusedWith (.clearPost l tag expected p) l tag .clearPost .malformed s) ∧
    (∀ n (f : SegmentFields), segmentOf n = none ∨ (∀ e, f.feedEnabled ≠ .named e) →
      RefusedWith (.writeSegment l tag expected n f) l tag .writeSegment .malformed s) ∧
    (∀ w (f : WindowFields), 8 ≤ w ∨ 8 ≤ f.sizeCode ∨ 1048575 < f.base ∨ (∀ x, f.carriageway ≠ .named x) ∨
        (∀ x, f.home ≠ .named x) ∨ 255 < f.label →
      RefusedWith (.writeWindow l tag expected w f) l tag .writeWindow .malformed s) ∧
    (∀ e (f : ClassFields), 8 ≤ e ∨ (∀ x, f.kind ≠ .named x) ∨ 23 < f.offset →
      RefusedWith (.writeClass l tag expected e f) l tag .writeClass .malformed s) ∧
    (∀ (home : Coded Link) w o, (∀ x, home ≠ .named x) →
      RefusedWith (.writeDefaults l tag expected home w o) l tag .writeDefaults .malformed s) ∧
    (∀ (named : Coded Link) d t, (∀ x, named ≠ .named x) →
      RefusedWith (.writeLink l tag expected named d t) l tag .writeLink .malformed s) ∧
    (¬s.current expected →
      (∀ p q (c : PostConfig) serial, postOf p = some q → c.Legal →
        RefusedWith (.writePost l tag expected p (c.fields serial)) l tag .writePost .stale s ∧
        RefusedWith (.clearPost l tag expected p) l tag .clearPost .stale s) ∧
      (∀ n g (f : SegmentFields) e, segmentOf n = some g → f.feedEnabled = .named e →
        RefusedWith (.writeSegment l tag expected n f) l tag .writeSegment .stale s) ∧
      (∀ (w : WindowNo) (f : WindowFields) x y, f.sizeCode < 8 → f.base ≤ 1048575 → f.carriageway = .named x →
        f.home = .named y → f.label ≤ 255 →
        RefusedWith (.writeWindow l tag expected w.val f) l tag .writeWindow .stale s) ∧
      (∀ (e : EntryNo) (f : ClassFields) x, f.kind = .named x → f.offset ≤ 23 →
        RefusedWith (.writeClass l tag expected e.val f) l tag .writeClass .stale s) ∧
      (∀ h w o, RefusedWith (.writeDefaults l tag expected (.named h) w o) l tag .writeDefaults .stale s) ∧
      ∀ n d t, RefusedWith (.writeLink l tag expected (.named n) d t) l tag .writeLink .stale s) ∧
    (s.current expected → s.manager.lock = true →
      (∀ p q (c : PostConfig) serial, postOf p = some q → c.Legal →
        (∀ old, s.postConfig q = some old → { old with serial := none } ≠ { c with serial := none }) →
        RefusedWith (.writePost l tag expected p (c.fields serial)) l tag .writePost .locked s) ∧
      (∀ p q, postOf p = some q → RefusedWith (.clearPost l tag expected p) l tag .clearPost .locked s) ∧
      (∀ n g (f : SegmentFields) e, segmentOf n = some g → f.feedEnabled = .named e →
        min 4095 f.turnaround ≠ (s.segmentConfig g).turnaround ∨
          max 100 (min 1500 f.cableConstant) ≠ (s.segmentConfig g).cableConstant →
        RefusedWith (.writeSegment l tag expected n f) l tag .writeSegment .locked s) ∧
      ∀ (w : WindowNo) (f : WindowFields) x y, f.sizeCode < 8 → f.base ≤ 1048575 → f.carriageway = .named x →
        f.home = .named y → f.label ≤ 255 →
        let old := s.tables.windows[w]
        (old.enabled ≠ f.enabled ∨ old.base ≠ f.base ∨ old.sizeCode.val ≠ f.sizeCode ∨
          old.carriageway ≠ x ∨ old.home ≠ y ∨ old.overflow ≠ f.overflow ∨
          old.classMask ≠ f.classMask ∨ old.label ≠ f.label) →
        RefusedWith (.writeWindow l tag expected w.val f) l tag .writeWindow .locked s)

/-! ### Commands on calls -/

/-- An accepted ANSWER takes the call for its link: owner and channel set, every offer and the decline mark gone, the
overflow timer and the ageing clock stopped, the state by R104's table; a call ANSWERED without the path asks for it: it
is granted where the path is free on an ACTIVE segment and nothing stands ahead, and has PATH_WAIT where a call holds it;
the other link's offer is withdrawn with CALL_WITHDRAWN; nothing received on the channel while it was FREE is heard,
as R119 has it; the other calls keep all but offers and grants (R104, R108, R115, R116, R119). -/
def Obligations.AnswerTakesTheCall : Prop :=
  ∀ (s : State) (l : Link) (tag : Tag), s.serves l → ∀ c n r, s.lookup c = some (n, r) → ∀ k y,
    channelOf k = some y → r.state.owned = false → r.offered.get l = true →
    (s.channel l y).use = .free →
    let w := replied l tag .answer (.done .empty) s
    let st : CallState := if r.lineDown then .lineLost
      else if r.state = .transferring ∧ r.pathHeld = true then .connected else .answered
    ∃ t held, exec (.answer l tag c k) s = .next t ∧
      t.call n = some { r with owner := some l, ownerChannel := some y, declineMark := none, overflowAt := none,
                               ageing := none, offered := PerLink.both false, state := st, pathHeld := held } ∧
      (st ≠ .answered → held = r.pathHeld) ∧
      (st = .answered → r.pathHeld = false →
        (CreationExact s → (s.path r.post.seg).holder = .none → (s.path r.post.seg).test = none →
          (s.line r.post.seg).feed = .active → (s.post r.post).presence = .present →
          (∀ q ∈ s.requests, q.post.seg ≠ r.post.seg) →
          held = true ∧ (t.path r.post.seg).holder = .call (r.ref n) ∧
          ⟨r.post.addr, .select⟩ ∈ (t.poll r.post.seg).queue) ∧
        ∀ x, (s.path r.post.seg).holder = .call x → (s.path r.post.seg).test = none →
          held = false ∧ (t.path r.post.seg).holder = .call x ∧ ⟨.call n, r.post⟩ ∈ t.requests ∧
          (w.room l 0 → ∃ ahead, Block.notice (.pathWait (r.ref n) r.post (.call x) ahead) ∈ (t.link l).queue)) ∧
      (t.channel l y).use = (if st = .connected then .connected n .owner else .reserved n .owner) ∧
      (t.channel l y).heard = 0#16 ∧
      (r.offered.get l.other = true → s.room l.other 0 →
        Block.notice (.callWithdrawn (r.ref n) r.post (.answered l)) ∈ (t.link l.other).queue) ∧
      (st = .connected → (t.path r.post.seg).holdTone = none) ∧
      OthersKept n s t ∧ CallFrame w t

/-- An accepted DECLINE gives up the link's offer, sets the decline mark, opens a HOME call homed on the link, and sends
no CALL_WITHDRAWN on either link; while the other link takes calls the decliner is not offered the call again (R98, R106, R107). -/
def Obligations.DeclineMarksTheCall : Prop :=
  ∀ (s : State) (l : Link) (tag : Tag), s.serves l → ∀ c n r, s.lookup c = some (n, r) → r.state.owned = false → r.offered.get l = true →
    let w := replied l tag .decline (.done .empty) s
    let opens := r.home = some l ∧ r.phase = some .home
    ∃ t offered st, exec (.decline l tag c) s = .next t ∧
      t.call n = some { r with declineMark := some l, offered := offered, state := st,
                               phase := if opens then some .openToBoth else r.phase,
                               overflowAt := if opens then none else r.overflowAt } ∧
      (r.state = .transferring → st = .transferring) ∧
      (r.state = .offered → st = if offered.a ∨ offered.b then .offered else .queued) ∧
      (s.taking l.other = true → offered.get l = false) ∧
      (r.offered.get l.other = true → offered.get l.other = true) ∧
      (∀ m more, (t.link m).queue = (w.link m).queue ++ more →
        ∀ ref p why, Block.notice (.callWithdrawn ref p why) ∉ more) ∧
      OthersKept n s t ∧ CallFrame w t

/-- An accepted HOLD makes an ANSWERED or CONNECTED call HELD, without request or path, its channel RESERVED; an accepted
RETRIEVE makes a HELD call ANSWERED, with the path where it is free and nothing stands ahead, with PATH_WAIT where a call
holds it (R114 to R116, R118, R123, R124). -/
def Obligations.HoldAndRetrieveMoveTheCall : Prop :=
  ∀ (s : State) (l : Link) (tag : Tag), s.serves l → ∀ c n r, s.lookup c = some (n, r) →
    r.owner = some l →
    (r.state = .answered ∨ r.state = .connected →
      let w := replied l tag .hold (.done .empty) s
      ∃ t, exec (.hold l tag c) s = .next t ∧
        t.call n = some { r with state := .held, pathHeld := false } ∧
        (∀ k, r.ownerChannel = some k → (t.channel l k).use = .reserved n .owner ∧ (t.channel l k).waitingTone = none) ∧
        (∀ q ∈ t.requests, q.claimant ≠ .call n) ∧
        (r.pathHeld = true → (t.path r.post.seg).holder ≠ .call (r.ref n) ∧
          ((s.post r.post).presence = .present → (t.post r.post).selected = false)) ∧
        OthersGranted n s t ∧ CallFrame w t) ∧
    (r.state = .held → r.pathHeld = false →
      let w := replied l tag .retrieve (.done .empty) s
      ∃ t held, exec (.retrieve l tag c) s = .next t ∧
        t.call n = some { r with state := .answered, pathHeld := held } ∧
        (∀ k, r.ownerChannel = some k → (t.channel l k).use = .reserved n .owner ∧
          (t.channel l k).waitingTone.isSome = true) ∧
        (CreationExact s → (s.path r.post.seg).holder = .none → (s.path r.post.seg).test = none →
          (s.line r.post.seg).feed = .active → (s.post r.post).presence = .present →
          (∀ q ∈ s.requests, q.post.seg ≠ r.post.seg) →
          held = true ∧ (t.path r.post.seg).holder = .call (r.ref n) ∧
          ⟨r.post.addr, .select⟩ ∈ (t.poll r.post.seg).queue) ∧
        (∀ x, (s.path r.post.seg).holder = .call x → (s.path r.post.seg).test = none →
          held = false ∧ (t.path r.post.seg).holder = .call x ∧ ⟨.call n, r.post⟩ ∈ t.requests ∧
          (w.room l 0 → ∃ ahead, Block.notice (.pathWait (r.ref n) r.post (.call x) ahead) ∈ (t.link l).queue)) ∧
        OthersGranted n s t ∧ CallFrame w t)

/-- An accepted RELEASE bars a post left off-hook, frees the call, its channels and its post's call part, and sends
CALL_CLEARED; the freed record goes to the head of the pending list where that post is PRESENT. The freeing of a DRAINING
link's last call ends its drain: the link is CLOSED, and HANDOVER_DONE goes to both links with mode FINISH and its
transfer count (R81, R82, R86, R87, R145). -/
def Obligations.ReleaseFreesTheCall : Prop :=
  ∀ (s : State) (l : Link) (tag : Tag), s.serves l → ∀ c n r, s.lookup c = some (n, r) →
    r.owner = some l →
    let w := replied l tag .release (.done .empty) s
    ∃ t, exec (.release l tag c) s = .next t ∧
      (∀ k, r.ownerChannel = some k → (t.channel l k).use = .free) ∧
      (∀ k, r.joinedChannel = some k → (t.channel l.other k).use = .free) ∧
      NoticeReaches (.callCleared (r.ref n) r.post r.state (some l) .release (some l)) 0 w t ∧
      (s.pendingList = [] →
        t.call n = none ∧ n ∉ t.created ∧ (t.post r.post).call = none ∧ t.pendingList = [] ∧ OthersKept n s t) ∧
      (∀ e rest, s.pendingList = e :: rest → (s.post e.post).presence = .present →
        t.pendingList = rest ∧ ∃ m x, t.call m = some x ∧ x.post = e.post ∧ x.kind = .emergency ∧
          x.origin = e.joined ∧ x.cls = e.result.cls ∧ x.weight = e.result.weight ∧
          (t.post e.post).call = some (x.ref m)) ∧
      (s.ownedBy l = [(n, r)] → (s.link l).mode = .draining → (t.link l).mode = .closed ∧
        ∀ m, (s.link m).up = true → Told (.handoverDone l .finish (s.link l).transfers) m t) ∧
      CallFrame (modPost r.post (fun q => { q with barred := q.barred || decide (q.hook = .off) }) w) t

/-- An accepted JOIN puts the link's channel into the call, an accepted LEAVE takes it out; neither changes a path, a
request, a state or an owner, and neither sends a notice; nothing received on the channel while it was FREE is heard;
and where the channel table agrees with the calls the other link's channels stand as they were (R119, R121, R125, R126). -/
def Obligations.JoinAndLeaveMoveTheJoinedChannel : Prop :=
  ∀ (s : State) (l : Link) (tag : Tag), s.serves l → ∀ c n r, s.lookup c = some (n, r) →
    r.owner = some l.other →
    (∀ k y, channelOf k = some y → (r.state = .answered ∨ r.state = .connected ∨ r.state = .held) →
      r.joinedChannel = none → (s.link l).mode ≠ .closed → (s.channel l y).use = .free →
      let w := replied l tag .join (.done .empty) s
      ∃ t, exec (.join l tag c k) s = .next t ∧
        t.call n = some { r with joinedChannel := some y } ∧ (∀ m, m ≠ n → t.call m = s.call m) ∧
        (t.channel l y).use = (if r.state = .connected then .connected n .joined else .reserved n .joined) ∧
        (t.channel l y).heard = 0#16 ∧
        ((t.channel l y).waitingTone.isSome = true ↔ r.state = .answered) ∧
        (∀ m, m ≠ y → t.channel l m = s.channel l m) ∧
        (∀ m, r.ownerChannel ≠ some m → t.channel l.other m = s.channel l.other m) ∧
        (ChannelsMatch s → (∀ m, t.channel l.other m = s.channel l.other m) ∧
          (t.channel l y).waitingTone = if r.state = .answered then some 0 else none) ∧
        (∀ m, t.link m = { w.link m with channels := (t.link m).channels }) ∧
        t = { w with calls := t.calls, links := t.links }) ∧
    (∀ y, r.joinedChannel = some y →
      let w := replied l tag .leave (.done .empty) s
      ∃ t, exec (.leave l tag c) s = .next t ∧
        t.call n = some { r with joinedChannel := none } ∧ (∀ m, m ≠ n → t.call m = s.call m) ∧
        t.channel l y = { use := .free, waitingTone := none, heard := 0#16 } ∧ (∀ m, m ≠ y → t.channel l m = s.channel l m) ∧
        t.link l.other = w.link l.other ∧ t.link l = { w.link l with channels := (t.link l).channels } ∧
        t = { w with calls := t.calls, links := t.links })

/-- An accepted CALL_POST creates a RINGING callback in the lowest-numbered free record, with the fields of R130, its
channel RESERVED, its cadence started and RING_ON requested unless the on-time is 0; the response carries the reference
and the ring timeout (R83, R129 to R131). A priority sent above 255 is held at 255: the model's choice, log 29. -/
def Obligations.CallPostCreatesACallback : Prop :=
  ∀ (s : State) (l : Link) (tag : Tag), s.serves l → ∀ p q, postOf p = some q → ∀ k y, channelOf k = some y →
    ∀ (priority : Option Nat) (n : CallNo), (s.link l).mode = .accepting →
    (s.line q.seg).feed.inService = true → (s.post q).presence = .present → (s.post q).call = none →
    (s.post q).pending = false → (s.post q).hook ≠ .off → (∀ t, (s.path q.seg).test = some t → t.addr ≠ q.addr) →
    (s.channel l y).use = .free → s.call n = none → (∀ m, m < n → s.call m ≠ none) →
    let cfg := s.segmentConfig q.seg
    let w := replied l tag .callPost (.done (.callPlaced ⟨n, s.nextSequence⟩ cfg.ringTimeout)) s
    ∃ t x, exec (.callPost l tag p k priority) s = .next t ∧ t.call n = some x ∧
      x = { sequence := s.nextSequence, kind := .callback, post := q, state := .ringing, cls := .default, weight := 0,
            priority := min 255 (priority.getD 128), phase := none, home := none, overflowAt := none,
            offered := PerLink.both false, owner := some l, ownerChannel := some y, joinedChannel := none,
            pathHeld := false, lineDown := false, transferred := false, origin := s.clock.seconds,
            location := s.locationOf q, ringDeadline := some (s.timebase + 1000 * cfg.ringTimeout), ageing := none,
            declineMark := none,
            cadence := some { began := s.timebase, periodStart := s.timebase, period := cfg.ringPeriod,
                              onTime := cfg.ringOnTime, audible := decide (0 < cfg.ringOnTime) } } ∧
      t.created = s.created ++ [n] ∧ t.nextSequence = s.nextSequence + 1 ∧ (t.post q).call = some ⟨n, s.nextSequence⟩ ∧
      t.channel l y = { use := .reserved n .owner, waitingTone := none, heard := 0#16 } ∧
      t.abandonedList = s.abandonedList.filter (fun e => e.post ≠ q) ∧
      (0 < cfg.ringOnTime → ⟨q.addr, .ringOn⟩ ∈ (t.poll q.seg).queue) ∧
      (cfg.ringOnTime = 0 → (t.poll q.seg).queue = (s.poll q.seg).queue) ∧
      (∀ m, m ≠ n → t.call m = s.call m) ∧ CallFrame w t

/-- An accepted TEST_POST makes the segment's test record; the test holds the path at once, STARTING with ECHO_ON
requested, where the path is free on an ACTIVE segment with no call request for a PRESENT post, and waits with its
request otherwise (R115, R137, R138). -/
def Obligations.TestPostTakesOrAwaitsThePath : Prop :=
  ∀ (s : State) (l : Link) (tag : Tag), s.serves l → ∀ p q, postOf p = some q →
    (s.line q.seg).feed.inService = true → (s.post q).presence = .present → (s.post q).call = none →
    (s.post q).pending = false → (s.path q.seg).test = none →
    let w := replied l tag .testPost (.done .empty) s
    ∃ t, exec (.testPost l tag p) s = .next t ∧
      ((s.path q.seg).holder = .none → (s.line q.seg).feed = .active →
        (∀ x ∈ s.callRequests q.seg, (s.post x.2.post).presence ≠ .present) →
        (t.path q.seg).test = some ⟨q.addr, l, .starting⟩ ∧ (t.path q.seg).holder = .test ∧
        ⟨q.addr, .echoOn⟩ ∈ (t.poll q.seg).queue ∧
        (∀ x ∈ t.requests, x.claimant = .test → x.post.seg ≠ q.seg) ∧ t.calls = s.calls ∧
        ∀ g, g ≠ q.seg → t.segment g = s.segment g) ∧
      ((s.path q.seg).holder ≠ .none ∨ (s.line q.seg).feed ≠ .active →
        t.path q.seg = { s.path q.seg with test := some ⟨q.addr, l, .waiting⟩ } ∧
        t.requests = s.requests ++ [⟨.test, q⟩] ∧ t.calls = s.calls ∧
        ∀ g, g ≠ q.seg → t.segment g = s.segment g) ∧
      t.created = s.created ∧ t.links = w.links ∧ CallFrame w t

/-! ### Handover, RESUME, link loss -/

/-- An accepted HANDOVER FINISH of an ACCEPTING link starts a drain: no QUEUED or OFFERED call stays offered to it or in
phase HOME homed on it; with no call owned the drain ends at once, and HANDOVER_DONE goes to both links with mode FINISH
and a transfer count of 0. Of a DRAINING link it changes nothing (R143 to R145). -/
def Obligations.HandoverFinishStartsADrain : Prop :=
  ∀ (l : Link) (tag : Tag) (s : State), s.serves l → (s.link l.other).up = true → (s.link l.other).mode = .accepting →
    let w := replied l tag .handover (.done .empty) s
    ((s.link l).mode = .draining → exec (.handoverFinish l tag) s = .next w) ∧
    ((s.link l).mode = .accepting → ∃ t, exec (.handoverFinish l tag) s = .next t ∧
      (t.link l).mode = (if s.ownedBy l = [] then .closed else .draining) ∧ (t.link l).transfers = 0 ∧
      (s.ownedBy l = [] → ∀ m, (s.link m).up = true → Told (.handoverDone l .finish 0) m t) ∧
      (CreationExact s → ∀ n c, t.call n = some c → c.state = .queued ∨ c.state = .offered →
        c.offered.get l = false ∧ ¬(c.home = some l ∧ c.phase = some .home)) ∧
      (∀ n c, s.call n = some c → c.state.owned = true → t.call n = some c) ∧
      CallFrame (modLink l (fun r => { r with mode := .draining }) w) t)

/-- An accepted HANDOVER IMMEDIATE closes the link: it owns no call and holds no offer, its calls having passed to the
joined peer or become TRANSFERRING, its transfer count stands at what its calls added to it, and HANDOVER_DONE goes to both
links with mode IMMEDIATE and that count (R94, R146, R148, R149). -/
def Obligations.HandoverImmediateGivesEveryCallUp : Prop :=
  ∀ (l : Link) (tag : Tag) (s : State), s.serves l → (s.link l.other).up = true → (s.link l.other).mode = .accepting →
    (s.link l).mode ≠ .closed → (s.link l).transfers ≤ 255 → CreationExact s →
    let w := replied l tag .handover (.done .empty) s
    ∃ t, exec (.handoverImmediate l tag) s = .next t ∧ (t.link l).mode = .closed ∧
      (∀ n c, t.call n = some c → c.owner ≠ some l) ∧
      (∀ n c, t.call n = some c → c.state.owned = false → c.offered.get l = false) ∧
      (∀ n c, s.call n = some c → c.owner = some l → c.state ≠ .ringing → c.state.owned = true →
        (∀ k, c.joinedChannel = some k → ∃ d, t.call n = some d ∧ d.owner = some l.other ∧ d.ownerChannel = some k ∧
          d.joinedChannel = none ∧ d.state = c.state ∧ d.priority = c.priority) ∧
        (c.joinedChannel = none → ∃ d, t.call n = some d ∧ d.owner = none ∧ d.state = .transferring ∧
          d.transferred = true ∧ d.priority = min 255 (c.priority + 20) ∧ d.lineDown = c.lineDown ∧
          d.declineMark = none ∧ d.ageing = some s.timebase)) ∧
      (t.link l).transfers = min 255 ((if (s.link l).mode = .accepting then 0 else (s.link l).transfers) +
        ((s.ownedBy l).filter (fun x => x.2.state ≠ .ringing)).length) ∧
      (∀ m, (s.link m).up = true → Told (.handoverDone l .immediate (t.link l).transfers) m t) ∧
      CallFrame (modLink l (fun r => { r with mode := .closed }) w) t

/-- RESUME of a link that is not ACCEPTING makes it ACCEPTING, sends LINK_STATE and fills it: no call that is eligible for
it is left unoffered. Of an ACCEPTING link it changes nothing (R99, R100, R147, R150). -/
def Obligations.ResumeFillsTheLink : Prop :=
  ∀ (l : Link) (tag : Tag) (s : State), s.serves l →
    let w := replied l tag .resume (.done .empty) s
    ((s.link l).mode = .accepting → exec (.resume l tag) s = .next w) ∧
    ((s.link l).mode ≠ .accepting → ∃ t, exec (.resume l tag) s = .next t ∧ (t.link l).mode = .accepting ∧
      (t.link l.other).mode = (s.link l.other).mode ∧
      NoticeReaches (.linkState (t.linkView .a) (t.linkView .b)) 0 w t ∧
      (CreationExact s → ∀ n c, t.call n = some c → c.offered.get l = false →
        (c.state = .transferring → t.eligibleTransfer c l = false) ∧
        (c.state = .queued ∨ c.state = .offered → t.eligible c l = false)) ∧
      (∀ n c, s.call n = some c → ∃ d, t.call n = some d ∧ OtherCallKept c d ∧
        (c.offered.a = true → d.offered.a = true) ∧ (c.offered.b = true → d.offered.b = true)) ∧
      CallFrame (modLink l (fun r => { r with mode := .accepting }) w) t)

/-- The expiry of a running link-loss timer takes its link DOWN: the timer stopped, the block in progress and the
output queue dropped, no call left owned by it, offered to it or joined to it; its transfer count rises by the calls
it gave up; a drain ends, with HANDOVER_DONE of mode FINISH and that count to the other link; the other link's
supervision stands (R94, R145, R151, R157). The timebase is brought to the timer's time: the model's choice, log 3. -/
def Obligations.LinkLossGivesEveryCallUp : Prop :=
  ∀ (s : State) (l : Link), s.supply.phase ≠ .inReset → (s.link l).up = true → ∀ m,
    (s.link l).lossTimer = some m → CreationExact s →
    ∃ t, exec (.linkLossExpiry l) s = .next t ∧ t.timebase = max s.timebase m.due ∧
      (t.link l).up = false ∧ (t.link l).lossTimer = none ∧ (t.link l).assembly = [] ∧ (t.link l).queue = [] ∧
      (∀ n c, t.call n = some c → c.owner ≠ some l) ∧
      (∀ n c, t.call n = some c → c.state.owned = false → c.offered.get l = false) ∧
      (∀ n c, t.call n = some c → c.state.owned = true → c.owner = some l.other → c.joinedChannel = none) ∧
      (t.link l).mode = (if (s.link l).mode = .draining then .closed else (s.link l).mode) ∧
      ((s.link l).transfers ≤ 255 → (t.link l).transfers =
        min 255 ((s.link l).transfers + ((s.ownedBy l).filter (fun x => x.2.state ≠ .ringing)).length)) ∧
      ((s.link l).mode = .draining → (s.link l.other).up = true →
        Told (.handoverDone l .finish (t.link l).transfers) l.other t) ∧
      LinkKept (s.link l.other) (t.link l.other) ∧
      CallFrame (modLink l (fun r => { r with up := false, lossTimer := none, assembly := [], queue := [],
                                              sentBytes := 0 }) { s with timebase := t.timebase }) t

/-! ### The Line Unit -/

/-- FEED OFF and FEED ON clear a start-up pending flag and, where the feed state asks for it, open or close the
switch; FEED RE-ENABLE of a LOCKED segment sets its trip count to 0 and switches it on. A switch-on sets the feed-on
mark and leaves the re-power timer stopped; the sending link is named in SEGMENT_STATE (R7, R12 to R16, R18). A window
open as a segment leaves service is dropped: the model's choice, log 10. -/
def Obligations.FeedSwitchesTheSegment : Prop :=
  ∀ (s : State) (l : Link) (tag : Tag), s.serves l → ∀ n g, segmentOf n = some g →
    let u := s.line g
    let w := replied l tag .feed (.done .empty) s
    let clear := modLine g (fun u => { u with startUp := false, startUpAt := none }) w
    (u.feed = .off → exec (.feedOff l tag n) s = .next clear) ∧
    (u.feed.powered = true → exec (.feedOn l tag n) s = .next clear) ∧
    (u.feed.inService = true → ∃ t, exec (.feedOff l tag n) s = .next t ∧ LeavesService g .off (.command l) clear t ∧
      (t.line g).trips = u.trips ∧ t.timebase = s.timebase) ∧
    (u.feed = .powering ∨ u.feed = .feedLost ∨ u.feed = .tripped → ∃ t, exec (.feedOff l tag n) s = .next t ∧
      t.line g = { u with feed := .off, startUp := false, startUpAt := none, underFilter := none, rePower := none,
                          retry := none, carrierSince := none } ∧
      OutOfServiceMove g .off (.command l) w t ∧ t.timebase = s.timebase) ∧
    (u.feed = .off ∨ u.feed = .tripped → ∃ t, exec (.feedOn l tag n) s = .next t ∧
      t.line g = { u with feed := .powering, startUp := false, startUpAt := none, underFilter := none, rePower := none,
                          retry := none, feedOn := some s.timebase, carrierSince := none } ∧
      OutOfServiceMove g .powering (.command l) w t ∧ t.timebase = s.timebase) ∧
    (u.feed = .locked → ∃ t, exec (.feedReEnable l tag n) s = .next t ∧
      t.line g = { u with feed := .powering, trips := 0, underFilter := none, rePower := none, retry := none,
                          feedOn := some s.timebase, carrierSince := none } ∧
      OutOfServiceMove g .powering (.command l) w t ∧ t.timebase = s.timebase)

/-- UNMUTE_POST of a MUTED post requests UNMUTE through the order queue: in place of the entry for its address, or at
the tail, where ECONOMY ends with its economy passes and a new pass begins; out of service the request is discarded;
nothing else changes (R31, R36, R43). -/
def Obligations.UnmuteRequestsTheOrder : Prop :=
  ∀ (s : State) (l : Link) (tag : Tag), s.serves l → ∀ p q, postOf p = some q →
    (s.line q.seg).feed ≠ .isolating → (s.post q).presence = .muted →
    let w := replied l tag .unmutePost (.done .empty) s
    let was := s.poll q.seg
    ∃ t, exec (.unmutePost l tag p) s = .next t ∧
      t.poll q.seg =
        (if (s.line q.seg).feed.inService = false then was
         else if was.queue.any (fun e => e.addr = q.addr) then
           { was with queue := was.queue.map (fun e => if e.addr = q.addr then ⟨q.addr, .unmute⟩ else e) }
         else if was.tempo = .normal then { was with queue := was.queue ++ [⟨q.addr, .unmute⟩] }
         else { was with queue := was.queue ++ [⟨q.addr, .unmute⟩], tempo := .normal, economyPass := false,
                         economyDue := none, covered := 0 }) ∧
      t.line q.seg = s.line q.seg ∧ t.path q.seg = s.path q.seg ∧ (∀ g, g ≠ q.seg → t.segment g = s.segment g) ∧
      t = { w with segments := t.segments }

/-- The feed-voltage events, each at a voltage that is such an event: a fall below turn-off starts the filter in
service and ends POWERING with its timer running; a return to turn-off stops the filter; a rise above turn-on ends
FEED_LOST and starts a stopped re-power timer; in every other state only the readings change (R5 to R7). The readings
are those the row carries, and an over-current reading among them trips nothing: the model's choice, log 15. A window open
on a segment out of service is dropped: the model's choice, log 10. -/
def Obligations.FeedVoltageEventsMoveTheSegment : Prop :=
  ∀ (g : SegId) (v : Nat) (overLimit : Bool) (s : State), s.supply.phase ≠ .inReset →
    let cfg := s.segmentConfig g
    let u := s.line g
    let read := modLine g (fun u => { u with volts := v, overLimit := overLimit }) s
    (v < cfg.turnOff →
      (u.feed.inService = true → exec (.feedVoltageFall g v overLimit) s =
        .next (modLine g (fun u => { u with underFilter := some (u.underFilter.getD (s.timebase + 200)) }) read)) ∧
      (u.feed = .powering → u.rePower ≠ none → ∃ t, exec (.feedVoltageFall g v overLimit) s = .next t ∧
        t.line g = { u with feed := .feedLost, volts := v, overLimit := overLimit, underFilter := none, rePower := none,
                            retry := none, carrierSince := none } ∧
        OutOfServiceMove g .feedLost .voltageFall s t ∧ t.timebase = s.timebase) ∧
      (u.feed.inService = false → (u.feed = .powering → u.rePower = none) →
        exec (.feedVoltageFall g v overLimit) s = .next read)) ∧
    (cfg.turnOff ≤ v → exec (.feedVoltageAboveTurnOff g v overLimit) s =
      .next (modLine g (fun u => { u with underFilter := none }) read)) ∧
    (cfg.turnOn < v →
      (u.feed = .feedLost → ∃ t, exec (.feedVoltageAboveTurnOn g v overLimit) s = .next t ∧
        t.line g = { u with feed := .powering, volts := v, overLimit := overLimit, underFilter := none,
                            rePower := some (s.timebase + 2000), retry := none, carrierSince := none } ∧
        OutOfServiceMove g .powering .voltageReturn s t ∧ t.timebase = s.timebase) ∧
      (u.feed = .powering → exec (.feedVoltageAboveTurnOn g v overLimit) s =
        .next (modLine g (fun u => { u with underFilter := none,
                                            rePower := some (u.rePower.getD (s.timebase + 2000)) }) read)) ∧
      (u.feed ≠ .feedLost → u.feed ≠ .powering → exec (.feedVoltageAboveTurnOn g v overLimit) s =
        .next (modLine g (fun u => { u with underFilter := none }) read)))

/-- The expiry of a running under-voltage filter takes a segment in service to FEED_LOST: its posts, its Poll
Scheduler, its test and its calls as line loss leaves them (R5, R14, R15, R88). The timebase is brought to the
filter's time, and the row of a stopped filter changes nothing: the model's choice, log 3. A window open then is
dropped: the model's choice, log 10. -/
def Obligations.FilterExpiryLosesTheFeed : Prop :=
  ∀ (g : SegId) (s : State), s.supply.phase ≠ .inReset →
    (∀ due, (s.line g).underFilter = some due → (s.line g).feed.inService = true →
      ∃ t, exec (.underVoltageFilterExpiry g) s = .next t ∧ LeavesService g .feedLost .underVoltage s t ∧
        t.timebase = max s.timebase due ∧ (t.line g).trips = (s.line g).trips ∧
        (t.line g).feedOn = (s.line g).feedOn ∧ (t.line g).rePower = none ∧ (t.line g).retry = none) ∧
    ((s.line g).underFilter = none → exec (.underVoltageFilterExpiry g) s = .next s)

/-- An over-current trips a powered segment: one more trip within 30 s of the feed-on mark, else one, LOCKED at the
third and TRIPPED with its retry running before it; with the switch open only the readings change (R2, R10, R14, R15).
The readings are those the row carries: the model's choice, log 15. A window open then is dropped: the model's choice,
log 10. -/
def Obligations.OverCurrentTripsTheSegment : Prop :=
  ∀ (g : SegId) (v : Nat) (s : State), s.supply.phase ≠ .inReset →
    let u := s.line g
    let count := match u.feedOn with
      | some t => if s.timebase - t ≤ 30000 then min 3 (u.trips + 1) else 1
      | none => 1
    let new : FeedState := if count = 3 then .locked else .tripped
    let tripped : LineUnit := { u with feed := new, trips := count, volts := v, overLimit := true, underFilter := none,
                                       rePower := none, retry := if count = 3 then none else some (s.timebase + 5000),
                                       carrierSince := none }
    (u.feed.powered = false →
      exec (.overCurrent g v) s = .next (modLine g (fun u => { u with volts := v, overLimit := true }) s)) ∧
    (u.feed.inService = true → ∃ t, exec (.overCurrent g v) s = .next t ∧ LeavesService g new .overCurrent s t ∧
      t.line g = tripped ∧ t.timebase = s.timebase) ∧
    (u.feed = .powering ∨ u.feed = .feedLost → ∃ t, exec (.overCurrent g v) s = .next t ∧ t.line g = tripped ∧
      OutOfServiceMove g new .overCurrent s t ∧ t.timebase = s.timebase)

/-- The re-power timer's expiry starts DISCOVERY at address 1 in NORMAL tempo; the trip retry's expiry and the
start-up turn of a pending OFF segment switch the feed on, with the feed-on mark set and the re-power timer stopped; a
turn of a segment not pending changes nothing (R7, R8, R11, R18, R37). The timebase is brought to the timer's time,
which the feed-on mark takes, and the row of a stopped timer changes nothing: the model's choice, log 3. A window open
on a segment out of service is dropped: the model's choice, log 10. -/
def Obligations.FeedTimersSwitchOnAndDiscover : Prop :=
  ∀ (g : SegId) (s : State), s.supply.phase ≠ .inReset →
    let u := s.line g
    (∀ due, u.feed = .powering → u.rePower = some due → ∃ t, exec (.rePowerTimerExpiry g) s = .next t ∧
      t.line g = { u with feed := .discovery, underFilter := none, rePower := none, retry := none,
                          carrierSince := none } ∧
      (t.poll g).tempo = .normal ∧ (t.poll g).discovery = some 0 ∧ (t.poll g).queue = (s.poll g).queue ∧
      t.path g = s.path g ∧ (∀ k, k ≠ g → t.segment k = s.segment k) ∧
      NoticeReaches (.segmentState g .discovery .powering .settled u.trips) 0 s t ∧ LinksOnlySent s t ∧
      t = { s with timebase := max s.timebase due, segments := t.segments, links := t.links }) ∧
    (∀ due, u.feed = .tripped → u.retry = some due → ∃ t, exec (.tripRetryExpiry g) s = .next t ∧
      t.line g = { u with feed := .powering, underFilter := none, rePower := none, retry := none,
                          feedOn := some (max s.timebase due), carrierSince := none } ∧
      OutOfServiceMove g .powering .retry s t ∧ t.timebase = max s.timebase due) ∧
    (∀ at_, u.feed = .off → u.startUp = true → u.startUpAt = some at_ → ∃ t, exec (.startUpSwitchOn g) s = .next t ∧
      t.line g = { u with feed := .powering, startUp := false, startUpAt := none, underFilter := none, rePower := none,
                          retry := none, feedOn := some (max s.timebase at_), carrierSince := none } ∧
      OutOfServiceMove g .powering .startUp s t ∧ t.timebase = max s.timebase at_) ∧
    (u.rePower = none → exec (.rePowerTimerExpiry g) s = .next s) ∧
    (u.retry = none → exec (.tripRetryExpiry g) s = .next s) ∧
    (u.startUp = false → exec (.startUpSwitchOn g) s = .next s)

/-! ### The Poll Scheduler -/

/-- What a poll slot sends, with no window open: in ACTIVE and DISCOVERY nothing while carrier is present, which is
then timed; else the head of the queue, alternating with the routine poll where that is due; else the routine poll
where it is due; in ISOLATING what the sweep's step sends; out of service nothing. The order sent goes out as its
burst, address, kind and CRC, and opens its window. A pass ends at 16 addresses: with the segment on battery, in
NORMAL tempo, no post of it in a call, its path free and its queue empty it enters ECONOMY, the first economy pass 10
s later; an economy pass ends. The slot takes the on-battery level (the model's choice, log 21), whose deasserting
ends ECONOMY (R24, R30, R32 to R38, R40, R41, R177). The burst stands in State until the next slot: the model's
choice, log 35. MUTED addresses count toward a pass: the model's reading, log 30. -/
def Obligations.PollSlotSendsTheChosenOrder : Prop :=
  ∀ (g : SegId) (carrier battery : Bool) (s : State), s.supply.phase ≠ .inReset → (s.poll g).sent = none →
    let normal : Poll → Poll := fun q => if battery = false ∧ q.tempo = .economy then
      { q with tempo := .normal, economyPass := false, economyDue := none, covered := 0 } else q
    let q : Poll := { normal (s.poll g) with burst := [] }
    let due := (s.line g).feed = .discovery ∨ q.tempo = .normal ∨ q.economyPass = true
    let kind : Order → Byte := fun
      | .status => 0x01#8 | .select => 0x02#8 | .deselect => 0x03#8 | .registered => 0x04#8 | .clear => 0x05#8
      | .ringOn => 0x06#8 | .ringOff => 0x07#8 | .mute => 0x08#8 | .unmute => 0x09#8 | .echoOn => 0x0A#8
      | .echoOff => 0x0B#8 | .muteAll => 0x0C#8
    let framed : List Byte → List Byte := fun content => content ++ bytes16 (crc16 content)
    let burst : Addr → Order → List Byte := fun a o => framed [BitVec.ofNat 8 (a.val + 1), kind o]
    ∃ t, exec (.pollSlot g carrier battery) s = .next t ∧
      ((s.line g).feed = .active ∨ (s.line g).feed = .discovery → carrier = true →
        t.poll g = q ∧ (t.line g).carrierSince = some ((s.line g).carrierSince.getD s.timebase)) ∧
      ((s.line g).feed = .active ∨ (s.line g).feed = .discovery → carrier = false →
        t.line g = s.line g ∧
        (∀ e rest, q.queue = e :: rest → q.lastQueued = false ∨ ¬due →
          (t.poll g).queue = rest ∧ (t.poll g).lastQueued = true ∧ (t.poll g).sweepPosition = q.sweepPosition ∧
          (t.poll g).tempo = q.tempo ∧ (e.order ≠ .muteAll → (t.poll g).burst = burst e.addr e.order) ∧
          (t.poll g).sent = if e.order = .muteAll ∨ (e.order ≠ .unmute ∧ (s.post ⟨g, e.addr⟩).presence = .muted)
            then none else some ⟨e.addr, e.order, true, false⟩) ∧
        (q.queue = [] → ¬due → t.poll g = { q with lastQueued := false }) ∧
        (q.queue = [] ∨ q.lastQueued = true → due →
          (t.poll g).queue = q.queue ∧ (t.poll g).lastQueued = false ∧
          ((s.line g).feed = .discovery → ∀ a, q.discovery = some a → (t.poll g).burst = burst a .status ∧
            ((s.post ⟨g, a⟩).presence ≠ .muted → (t.poll g).sent = some ⟨a, .status, false, false⟩)) ∧
          ((s.line g).feed = .active → q.discovery = none →
            (s.post ⟨g, q.sweepPosition⟩).presence ≠ .muted →
            (t.poll g).sent = some ⟨q.sweepPosition, .status, false, false⟩ ∧
            (t.poll g).burst = burst q.sweepPosition .status ∧
            ∃ k : Nat, 1 ≤ k ∧ k ≤ 16 ∧ (t.poll g).sweepPosition.val = (q.sweepPosition.val + k) % 16 ∧
              (s.post ⟨g, (t.poll g).sweepPosition⟩).presence ≠ .muted ∧
              (∀ j (b : Addr), 1 ≤ j → j < k → b.val = (q.sweepPosition.val + j) % 16 →
                (s.post ⟨g, b⟩).presence = .muted) ∧
              let quiet := battery = true ∧ q.tempo = .normal ∧ (∀ a, (s.post ⟨g, a⟩).call = none) ∧
                (s.path g).holder = .none ∧ q.queue = []
              (q.covered + k < 16 → (t.poll g).covered = q.covered + k ∧ (t.poll g).tempo = q.tempo ∧
                (t.poll g).economyPass = q.economyPass ∧ (t.poll g).economyDue = q.economyDue) ∧
              (16 ≤ q.covered + k → (t.poll g).covered = 0 ∧
                (quiet → (t.poll g).tempo = .economy ∧ (t.poll g).economyPass = false ∧
                  (t.poll g).economyDue = some (s.timebase + 10000)) ∧
                (¬quiet → (t.poll g).tempo = q.tempo ∧ (t.poll g).economyDue = q.economyDue ∧
                  (q.tempo = .economy → (t.poll g).economyPass = false)))))) ∧
      ((s.line g).feed = .isolating → t.line g = s.line g ∧ (t.poll g).queue = q.queue ∧
        (q.isolation = some .muteAllNext → (t.poll g).burst = framed [0x00#8, 0x0C#8] ∧
          (t.poll g).isolation = some (.muteAllListen (s.timebase + 240)) ∧ (t.poll g).sent = none) ∧
        ∀ a, q.isolationPosition = some a →
          (q.isolation = some .unmuteNext → (t.poll g).burst = burst a .unmute ∧
            (t.poll g).isolation = some (.unmuteListen (s.timebase + 240)) ∧
            (t.poll g).sent = some ⟨a, .unmute, false, false⟩) ∧
          (q.isolation = some .statusNext → (s.post ⟨g, a⟩).presence ≠ .muted → (t.poll g).burst = burst a .status ∧
            (t.poll g).isolation = some .statusNext ∧ (t.poll g).sent = some ⟨a, .status, false, false⟩) ∧
          (q.isolation = some .muteNext → (s.post ⟨g, a⟩).presence ≠ .muted → (t.poll g).burst = burst a .mute ∧
            (t.poll g).isolation = some (.muteListen (s.timebase + 240)) ∧
            (t.poll g).sent = some ⟨a, .mute, false, false⟩)) ∧
      ((s.line g).feed.inService = false → t.line g = s.line g ∧ t.poll g = q) ∧
      t.path g = s.path g ∧
      (∀ k, k ≠ g → t.line k = s.line k ∧ t.path k = s.path k ∧ t.poll k = normal (s.poll k)) ∧
      t = { s with onBattery := battery, segments := t.segments }

/-- A report inside its window and good is accepted: the post is PRESENT with the report's serial, format and hook,
its alarm set is the report's, its location part is what ranging, the filter and the judgement make of the delay, and
the window is over (at once: the model's choice, log 32). A found post sends POST_FOUND. The answer of a SELECT that
no stopping order overtook makes the ANSWERED call its grant names CONNECTED, with its channels, and its post
selected; an overtaken one changes nothing of the call (the model's reading, log 16). The answer of an ECHO_ON starts
the sequence of a STARTING test and sets echo. The answer of the address the discovery sweep is settling takes the
sweep on, whatever the order was (the model's reading, log 25), and after address 16 the segment to ACTIVE with
SEGMENT_STATE (R8, R21, R25, R27, R28, R37, R50, R56 to R59, R63, R64, R117, R138). -/
def Obligations.AcceptedReportUpdatesThePost : Prop :=
  ∀ (s : State) (g : SegId) (delay : Nat) (bytes : List Byte), s.supply.phase ≠ .inReset → delay ≤ 65535 →
    ∀ w, (s.poll g).sent = some w → ∀ r, decodeReport w.addr bytes = some r →
    let p : PostId := ⟨g, w.addr⟩
    let old := s.post p
    let cfg := s.segmentConfig g
    let cable := (s.postConfig p).bind (·.cable)
    let sample := rangeSample delay cfg.turnaround cfg.cableConstant
    ∃ t, exec (.report g delay bytes) s = .next t ∧
      (t.post p).presence = .present ∧ (t.post p).missed = 0 ∧ (t.post p).lastSerial = some r.serial ∧
      (t.post p).lastFormat = some r.format ∧ (t.post p).hook = (if r.offHook then .off else .on) ∧
      (t.post p).barred = (old.barred && r.offHook) ∧
      (t.post p).lastSample = some sample ∧ (t.post p).filtered = nextFiltered old.filtered sample ∧
      (t.post p).mismatch = nextMismatch old.mismatch cfg.tolerance sample (t.post p).filtered cable ∧
      (t.post p).verification = judge ((s.postConfig p).bind (·.serial)) r.serial cable (t.post p).filtered
        (t.post p).mismatch ∧
      (t.post p).alarms = alarmSet (s.evaluate p r.format r.payload) ∧
      (t.poll g).sent = none ∧
      (old.presence = .lost ∨ old.presence = .muted →
        NoticeReaches (.postFound p r.serial (if r.offHook then .off else .on)) 0 s t) ∧
      (∀ c, s.postConfig p = some c → c.serial = none → r.serial ≠ 0#32 →
        t.postConfig p = some { c with serial := some r.serial } ∧
        t.manager = { s.manager with revision := s.manager.revision + 1 }) ∧
      ((∀ c, s.postConfig p = some c → c.serial ≠ none ∨ r.serial = 0#32) →
        t.tables = s.tables ∧ t.manager = s.manager) ∧
      (w.order = .select → (s.line g).feed = .active → old.presence = .present → old.hook = .off → r.offHook = true →
        ∀ n c, old.call = some (c.ref n) → s.call n = some c → c.state = .answered →
        (s.path g).grant = some ⟨c.ref n, false⟩ →
        (w.overtaken = true → t.call n = some c) ∧
        (w.overtaken = false → t.call n = some { c with state := .connected } ∧ (t.post p).selected = true ∧
          (t.path g).grant = some ⟨c.ref n, true⟩ ∧
          ∀ x ∈ c.channels, (t.channel x.1 x.2.1).use = .connected n x.2.2 ∧
            (t.channel x.1 x.2.1).waitingTone = none)) ∧
      (w.order = .echoOn → w.overtaken = false → old.presence = .present →
        old.hook = (if r.offHook then .off else .on) → ∀ x, (s.path g).test = some x → x.addr = w.addr →
        x.phase = .starting → (t.path g).test = some { x with phase := .running } ∧ (t.post p).echo = true ∧
          (t.path g).signal = some { register := 0x01#8, sample := 0 }) ∧
      ((s.line g).feed = .discovery → (s.poll g).discovery = some w.addr →
        (w.addr = 15 → (t.line g).feed = .active ∧ (t.poll g).discovery = none ∧ ∀ l, (s.link l).up = true →
          Told (.segmentState g .active .discovery .sweepDone (s.line g).trips) l t) ∧
        (w.addr ≠ 15 → (t.line g).feed = .discovery ∧ (t.poll g).discovery = some (w.addr + 1))) ∧
      (∀ q, q ≠ p → PostKept (s.post q) (t.post q)) ∧ (∀ k, k ≠ g → t.line k = s.line k) ∧
      (∀ l, LinkKept (s.link l) (t.link l)) ∧ t.clock = s.clock ∧ t.timebase = s.timebase ∧ t.supply = s.supply ∧
      t.memory = s.memory

/-- A report outside a window, past 65535 ticks, or not one a post sends is discarded whole; a window that closes without
an accepted report is a miss: the count rises, held at 3, and at 3 a PRESENT post becomes LOST with POST_LOST, its hook
UNKNOWN and its alarms and F cleared, a MUTED one LOST with POST_LOST, an UNKNOWN one LOST, the queue left with no
entry for its address (a newer order among them: the model's reading, log 33); below 3 a missed order from the queue is
queued again. A miss on MUTE is not counted. A close with no window open, as after an accepted report or a drop of the
window, changes nothing, carrier present or not: the model's choice, logs 10 and 32 (R24, R26, R29 to R31, R38, R51, R60). -/
def Obligations.MissesCountTowardLost : Prop :=
  ∀ (g : SegId) (s : State), s.supply.phase ≠ .inReset →
    (∀ delay bytes, (∀ w, (s.poll g).sent = some w → 65535 < delay ∨ decodeReport w.addr bytes = none) →
      exec (.report g delay bytes) s = .next s) ∧
    (∀ carrier, (s.poll g).sent = none → exec (.responseWindowClose g carrier) s = .next s) ∧
    ∀ carrier w, (s.poll g).sent = some w →
      let p : PostId := ⟨g, w.addr⟩
      let old := s.post p
      ∃ t, exec (.responseWindowClose g carrier) s = .next t ∧ (t.poll g).sent = none ∧
        (w.order = .mute → t.post p = old) ∧
        (w.order ≠ .mute → (t.post p).missed = min 3 (old.missed + 1)) ∧
        (w.order ≠ .mute → old.missed < 2 → (t.post p).presence = old.presence ∧ (t.post p).filtered = old.filtered ∧
          (old.presence = .present → w.queued = true → w.order ≠ .status → (s.line g).feed = .active →
            (∀ e ∈ (s.poll g).queue, e.addr ≠ w.addr) →
            (t.poll g).queue = (s.poll g).queue ++ [⟨w.addr, w.order⟩])) ∧
        (w.order ≠ .mute → 2 ≤ old.missed → (t.post p).presence = .lost) ∧
        (w.order ≠ .mute → 2 ≤ old.missed → old.presence ≠ .lost → ∀ e ∈ (t.poll g).queue, e.addr ≠ w.addr) ∧
        (w.order ≠ .mute → 2 ≤ old.missed → old.presence = .present →
          (t.post p).hook = .unknown ∧ (t.post p).selected = false ∧
          (t.post p).ringing = false ∧ (t.post p).echo = false ∧ (t.post p).alarms = [] ∧
          (t.post p).filtered = none) ∧
        (w.order ≠ .mute → 2 ≤ old.missed → old.presence = .present ∨ old.presence = .muted →
          NoticeReaches (.postLost p) 0 s t) ∧
        (∀ q, q ≠ p → PostKept (s.post q) (t.post q)) ∧ (∀ l, LinkKept (s.link l) (t.link l)) ∧
        t.tables = s.tables ∧ t.manager = s.manager ∧ t.timebase = s.timebase ∧ t.clock = s.clock

/-- The off-hook report of a PRESENT post with no call makes an EMERGENCY call in the lowest-numbered free record, with
the class, priority, origin and sequence its rules give and REGISTERED requested, or puts the post at the tail of the
pending list; that of a RINGING callback's post answers it, with its path request. The on-hook report of a waiting call's
post frees the call and enters it in the abandoned list, that of an answered or TRANSFERRING call's frees it with
CALL_CLEARED. A heavier class escalates a waiting EMERGENCY call. The report of a post found again is a line return: a
LINE_LOST call is ANSWERED again with LINE_RESTORED, or freed on-hook, and a waiting call's line is up again (R28, R52, R74
to R77, R80, R81, R83, R84, R89, R133). -/
def Obligations.HookReportsMakeAndEndCalls : Prop :=
  ∀ (s : State) (g : SegId) (delay : Nat) (bytes : List Byte), s.supply.phase ≠ .inReset → delay ≤ 65535 →
    ∀ w, (s.poll g).sent = some w → ∀ r, decodeReport w.addr bytes = some r →
    (s.line g).feed.inService = true → w.order = .status →
    let p : PostId := ⟨g, w.addr⟩
    let result := classResult s.tables.defaults.weight (s.evaluate p r.format r.payload)
    ((s.post p).presence = .present →
      (r.offHook = true → (s.post p).hook ≠ .off → (s.post p).barred = false → (s.post p).call = none →
        (s.post p).pending = false → (∀ x, (s.path g).test = some x → x.addr ≠ w.addr) →
        (∀ n, s.call n = none → (∀ m, m < n → s.call m ≠ none) →
          ∃ t x, exec (.report g delay bytes) s = .next t ∧ t.call n = some x ∧ x.kind = .emergency ∧ x.post = p ∧
            (x.state = .queued ∨ x.state = .offered) ∧ x.cls = result.cls ∧ x.weight = result.weight ∧
            x.priority = min 255 (result.weight + match s.postConfig p with
              | some c => if c.road = .tunnel then 30 else if c.road = .viaduct then 10 else 0
              | none => 0) ∧
            x.origin = s.clock.seconds ∧ x.sequence = s.nextSequence ∧ x.ageing = some s.timebase ∧ x.owner = none ∧
            t.created = s.created ++ [n] ∧ t.nextSequence = s.nextSequence + 1 ∧
            (t.post p).call = some ⟨n, s.nextSequence⟩ ∧
            ((s.line g).feed = .active → ⟨w.addr, .registered⟩ ∈ (t.poll g).queue)) ∧
        ((∀ n, s.call n ≠ none) → ∃ t, exec (.report g delay bytes) s = .next t ∧
          t.pendingList = s.pendingList ++ [⟨p, s.clock.seconds, result⟩] ∧ (t.post p).pending = true ∧
          t.created = s.created)) ∧
      (r.offHook = false → (s.post p).hook = .off → s.pendingList = [] → ∀ n c,
        (s.post p).call = some (c.ref n) → s.call n = some c → c.post = p →
        (c.state = .queued ∨ c.state = .offered →
          ∃ t e, exec (.report g delay bytes) s = .next t ∧ t.call n = none ∧ n ∉ t.created ∧ (t.post p).call = none ∧
            t.abandonedList.getLast? = some e ∧ e.post = p ∧ e.origin = c.origin ∧ e.abandoned = s.clock.seconds ∧
            e.chainage = (s.postConfig p).map (·.chainage)) ∧
        (c.state = .answered ∨ c.state = .connected ∨ c.state = .held ∨ c.state = .transferring →
          ∃ t, exec (.report g delay bytes) s = .next t ∧ t.call n = none ∧ n ∉ t.created ∧ (t.post p).call = none ∧
            (∀ x ∈ c.channels, (t.channel x.1 x.2.1).use = .free) ∧ t.abandonedList = s.abandonedList ∧
            ∀ l, (s.link l).up = true → Told (.callCleared (c.ref n) p c.state c.owner .onHook none) l t)) ∧
      (r.offHook = true → (s.post p).hook ≠ .off → (s.post p).barred = false → (s.path g).test = none → ∀ n c l,
        (s.post p).call = some (c.ref n) → s.call n = some c → c.post = p → c.state = .ringing → c.owner = some l →
        c.pathHeld = false →
        ∃ t held, exec (.report g delay bytes) s = .next t ∧
          t.call n = some { c with state := .answered, cadence := none, ringDeadline := none, pathHeld := held } ∧
          (t.post p).ringing = false ∧
          (∀ k, c.ownerChannel = some k → (t.channel l k).use = .reserved n .owner ∧
            (t.channel l k).waitingTone.isSome = true) ∧
          (CreationExact s → (s.path g).holder = .none → (s.line g).feed = .active →
            (∀ q ∈ s.requests, q.post.seg ≠ g) →
            held = true ∧ (t.path g).holder = .call (c.ref n) ∧ ⟨w.addr, .select⟩ ∈ (t.poll g).queue) ∧
          (∀ x, (s.path g).holder = .call x → held = false ∧ (t.path g).holder = .call x ∧
            ⟨.call n, p⟩ ∈ t.requests ∧
            ((s.post p).ringing = true → ⟨w.addr, .ringOff⟩ ∈ (t.poll g).queue) ∧
            ((s.link l).up = true → ∃ ahead, Told (.pathWait (c.ref n) p (.call x) ahead) l t))) ∧
      (r.offHook = true → (s.post p).hook = .off → (s.line g).feed = .active → ∀ n c,
        (s.post p).call = some (c.ref n) → s.call n = some c →
        (c.kind = .emergency → c.state.waiting = true → c.weight < result.weight →
          ∃ t place, exec (.report g delay bytes) s = .next t ∧
            t.call n = some { c with cls := result.cls, weight := result.weight,
                                     priority := min 255 (c.priority + (result.weight - c.weight)),
                                     location := place } ∧
            place.post = p ∧ place.serial = some r.serial ∧ place.filtered = (t.post p).filtered ∧
            place.verification = (t.post p).verification) ∧
        (c.kind ≠ .emergency ∨ c.state.owned = true ∨ result.weight ≤ c.weight →
          ∃ t, exec (.report g delay bytes) s = .next t ∧ t.call n = some c))) ∧
    ((s.post p).presence ≠ .present → ∀ n c, (s.post p).call = some (c.ref n) → s.call n = some c → c.post = p →
      (r.offHook = true → c.state = .lineLost → c.pathHeld = false →
        ∃ t held, exec (.report g delay bytes) s = .next t ∧
          t.call n = some { c with state := .answered, lineDown := false, pathHeld := held } ∧
          ∀ l, c.owner = some l → (s.link l).up = true → Told (.lineRestored (c.ref n) p) l t) ∧
      (r.offHook = true → c.state.waiting = true →
        ∃ t d, exec (.report g delay bytes) s = .next t ∧ t.call n = some d ∧ d.lineDown = false ∧ d.state = c.state) ∧
      (r.offHook = false → s.pendingList = [] → c.state = .lineLost →
        ∃ t, exec (.report g delay bytes) s = .next t ∧ t.call n = none ∧ (t.post p).call = none ∧
          (∀ x ∈ c.channels, (t.channel x.1 x.2.1).use = .free) ∧
          ∀ l, (s.link l).up = true → Told (.callCleared (c.ref n) p .lineLost c.owner .onHook none) l t) ∧
      (r.offHook = false → s.pendingList = [] → c.state = .queued ∨ c.state = .offered →
        ∃ t, exec (.report g delay bytes) s = .next t ∧ t.call n = none ∧ (t.post p).call = none ∧
          ∀ l, (s.link l).up = true →
            ∃ cls, Told (.callAbandoned (some (c.ref n)) p c.origin cls .onHook) l t))

/-- Babble in DISCOVERY or ACTIVE takes the segment to ISOLATING with MUTE_ALL next and every post as it was; the
sweep's listen periods then end as R40 and R41 give: after MUTE_ALL and MUTE, carrier trips the segment with cause
LINE_FAULT; after UNMUTE, carrier makes the post the babbler, to be sent MUTE, and none has it sent STATUS; after
MUTE, no carrier makes it MUTED with BABBLER_ISOLATED (R9, R10, R29, R38, R40, R41). The timebase is brought to the
end of the listen period: the model's choice, log 3. A window open as the segment leaves service is dropped: the
model's choice, log 10. -/
def Obligations.BabbleIsIsolated : Prop :=
  ∀ (g : SegId) (s : State), s.supply.phase ≠ .inReset →
    let u := s.line g
    let q := s.poll g
    (u.feed = .discovery ∨ u.feed = .active → ∃ t, exec (.babble g) s = .next t ∧ (t.line g).feed = .isolating ∧
      (t.line g).underFilter = u.underFilter ∧ (t.line g).trips = u.trips ∧ (t.poll g).tempo = .normal ∧
      (t.poll g).discovery = none ∧ (t.poll g).isolation = some .muteAllNext ∧ (t.poll g).isolationPosition = none ∧
      (t.poll g).queue = q.queue ∧ t.path g = s.path g ∧
      NoticeReaches (.segmentState g .isolating u.feed .babble u.trips) 0 s t ∧ LinksOnlySent s t ∧
      (∀ k, k ≠ g → t.segment k = s.segment k) ∧
      t = { s with timebase := t.timebase, segments := t.segments, links := t.links }) ∧
    (u.feed ≠ .discovery → u.feed ≠ .active → exec (.babble g) s = .next s) ∧
    (u.feed ≠ .isolating → ∀ carrier, exec (.isolationListenEnd g carrier) s = .next s) ∧
    (u.feed = .isolating → ∀ due,
      (q.isolation = some (.muteAllListen due) ∨ q.isolation = some (.muteListen due) →
        ∃ t, exec (.isolationListenEnd g true) s = .next t ∧ t.timebase = max s.timebase due ∧
          (LeavesService g .tripped .lineFault s t ∨ LeavesService g .locked .lineFault s t) ∧ 1 ≤ (t.line g).trips ∧
          ((t.line g).feed = .locked ↔ (t.line g).trips = 3)) ∧
      (q.isolation = some (.muteAllListen due) → (∃ a, (s.post ⟨g, a⟩).presence ≠ .muted) →
        ∃ t a, exec (.isolationListenEnd g false) s = .next t ∧ (t.poll g).isolation = some .unmuteNext ∧
          (t.poll g).isolationPosition = some a ∧ (s.post ⟨g, a⟩).presence ≠ .muted ∧
          (∀ b, b < a → (s.post ⟨g, b⟩).presence = .muted) ∧ t.posts = s.posts) ∧
      (q.isolation = some (.muteAllListen due) → (∀ a, (s.post ⟨g, a⟩).presence = .muted) →
        ∃ t, exec (.isolationListenEnd g false) s = .next t ∧ (t.line g).feed = .active ∧
          (t.poll g).isolation = none ∧ (t.poll g).sweepPosition = 0) ∧
      (q.isolation = some (.unmuteListen due) → ∀ carrier, exec (.isolationListenEnd g carrier) s =
        .next (modPoll g (fun q => { q with isolation := some (if carrier then .muteNext else .statusNext) })
          { s with timebase := max s.timebase due })) ∧
      (q.isolation = some (.muteListen due) → ∀ a, q.isolationPosition = some a →
        ∃ t, exec (.isolationListenEnd g false) s = .next t ∧ (t.post ⟨g, a⟩).presence = .muted ∧
          (t.post ⟨g, a⟩).alarms = [] ∧ (t.post ⟨g, a⟩).filtered = none ∧
          ((s.post ⟨g, a⟩).presence = .present → (t.post ⟨g, a⟩).hook = .unknown) ∧
          NoticeReaches (.babblerIsolated ⟨g, a⟩ (s.post ⟨g, a⟩).lastSerial (s.post ⟨g, a⟩).presence) 0 s t ∧
          ((∀ b, a < b → (s.post ⟨g, b⟩).presence = .muted) → (t.line g).feed = .active) ∧
          (∀ b, a < b → (s.post ⟨g, b⟩).presence ≠ .muted → (∀ x, a < x → x < b → (s.post ⟨g, x⟩).presence = .muted) →
            (t.line g).feed = .isolating ∧ (t.poll g).isolation = some .unmuteNext ∧
            (t.poll g).isolationPosition = some b)))

/-- Carrier begins to be timed in DISCOVERY and ACTIVE outside a window; an attention burst ends the timing and in
ACTIVE starts a pass in NORMAL tempo; an economy pass starts at its time and the next falls 10 s later; the on-battery
input's deasserting returns every segment in ECONOMY to NORMAL (R35, R36, R38, R39). The timebase is brought to the
pass's time, and the row of a pass that is not due at any time changes nothing: the model's choice, log 3. -/
def Obligations.TempoAndCarrierEvents : Prop :=
  ∀ (g : SegId) (s : State), s.supply.phase ≠ .inReset →
    let u := s.line g
    let q := s.poll g
    (exec (.carrierStart g) s =
      if (u.feed = .discovery ∨ u.feed = .active) ∧ q.sent = none then
        .next (modLine g (fun u => { u with carrierSince := some (u.carrierSince.getD s.timebase) }) s)
      else .next s) ∧
    (u.feed = .active → ∃ t, exec (.attentionBurst g) s = .next t ∧
      t.line g = { u with carrierSince := none } ∧
      t.poll g = { q with tempo := .normal, covered := 0,
                          economyPass := if q.tempo = .economy then false else q.economyPass,
                          economyDue := if q.tempo = .economy then none else q.economyDue } ∧
      t.path g = s.path g ∧ (∀ k, k ≠ g → t.segment k = s.segment k) ∧ t = { s with segments := t.segments }) ∧
    (u.feed ≠ .active → exec (.attentionBurst g) s =
      .next (modLine g (fun u => { u with carrierSince := none }) s)) ∧
    (∀ due, q.tempo = .economy → q.economyDue = some due → exec (.economyPassStart g) s =
      .next (modPoll g (fun q => { q with economyPass := true, covered := 0, economyDue := some (due + 10000) })
        { s with timebase := max s.timebase due })) ∧
    (q.tempo = .normal ∨ q.economyDue = none → exec (.economyPassStart g) s = .next s) ∧
    ∃ t, exec .onBatteryDeassert s = .next t ∧ t.onBattery = false ∧
      (∀ k, t.line k = s.line k ∧ t.path k = s.path k ∧ t.poll k =
        (if (s.poll k).tempo = .economy then
          { s.poll k with tempo := .normal, economyPass := false, economyDue := none, covered := 0 } else s.poll k)) ∧
      t = { s with onBattery := false, segments := t.segments }

/-! ### Call and test timers -/

/-- A waiting call's ageing step raises its priority by one, held at 255, and its clock counts on; the overflow timer
of a HOME call in QUEUED or OFFERED opens it, no call eligible for an offer being left without it; a call past its
state is left as it is (R78, R97 to R100). The timebase is brought to the step's or the timer's time, and the row of a
stopped clock or timer changes nothing: the model's choice, log 3. -/
def Obligations.AgeingAndOverflowActOnWaitingCalls : Prop :=
  ∀ (n : CallNo) (s : State), s.supply.phase ≠ .inReset →
    (∀ c began, s.call n = some c → c.ageing = some began → c.state.waiting = true →
      exec (.ageingStep n) s = .next
        { s with timebase := max s.timebase (began + 10000),
                 calls := s.calls.set n (some { c with priority := min 255 (c.priority + 1),
                                                       ageing := some (began + 10000) }) }) ∧
    (∀ c due, s.call n = some c → c.overflowAt = some due → c.phase = some .home →
      c.state = .queued ∨ c.state = .offered →
      ∃ t d, exec (.overflowTimerExpiry n) s = .next t ∧ t.call n = some d ∧
        d = { c with phase := some .openToBoth, overflowAt := none, state := d.state, offered := d.offered } ∧
        (d.state = .queued ∨ d.state = .offered) ∧
        (∀ l, c.offered.get l = true → d.offered.get l = true) ∧
        (CreationExact s → ∀ l m x, t.call m = some x → x.state = .queued ∨ x.state = .offered →
          x.offered.get l = false → t.eligible x l = false) ∧
        OthersKept n s t ∧ CallFrame { s with timebase := max s.timebase due } t) ∧
    ((∀ c, s.call n = some c → c.ageing = none ∨ c.state.owned = true) → exec (.ageingStep n) s = .next s) ∧
    ((∀ c, s.call n = some c → c.overflowAt = none ∨ (c.state ≠ .queued ∧ c.state ≠ .offered)) →
      exec (.overflowTimerExpiry n) s = .next s)

/-- A ring period starts as the one before ends, with the settings as they stand and RING_ON requested unless the
on-time is 0; the end of an on-time short of its period silences ring-back and requests RING_OFF; the ring deadline
frees the call with CALLBACK_UNANSWERED. After the call has left RINGING none of them does anything (R81, R131, R132,
R134). The timebase is brought to each time of the cadence and to the deadline, from which the seconds rung are
counted: the model's choice, log 3. -/
def Obligations.RingCadenceAndDeadline : Prop :=
  ∀ (n : CallNo) (s : State), s.supply.phase ≠ .inReset →
    (∀ c d, s.call n = some c → c.state = .ringing → c.cadence = some d →
      let at_ := d.periodStart + 50 * d.period
      let cfg := s.segmentConfig c.post.seg
      ∃ t, exec (.ringPeriodStart n) s = .next t ∧ t.timebase = max s.timebase at_ ∧
        t.call n = some { c with cadence := some ⟨d.began, at_, cfg.ringPeriod, cfg.ringOnTime,
                                                    decide (0 < cfg.ringOnTime)⟩ } ∧
        (0 < cfg.ringOnTime → (s.line c.post.seg).feed.inService = true →
          ⟨c.post.addr, .ringOn⟩ ∈ (t.poll c.post.seg).queue) ∧
        (cfg.ringOnTime = 0 → t.segments = s.segments) ∧ t.posts = s.posts ∧
        (∀ m, m ≠ n → t.call m = s.call m) ∧
        t = { s with timebase := t.timebase, calls := t.calls, segments := t.segments }) ∧
    (∀ c d, s.call n = some c → c.state = .ringing → c.cadence = some d → d.audible = true → d.onTime < d.period →
      ∃ t, exec (.ringOnTimeEnd n) s = .next t ∧ t.timebase = max s.timebase (d.periodStart + 50 * d.onTime) ∧
        t.call n = some { c with cadence := some { d with audible := false } } ∧
        t.post c.post = { s.post c.post with ringing := false } ∧
        ((s.line c.post.seg).feed.inService = true → ⟨c.post.addr, .ringOff⟩ ∈ (t.poll c.post.seg).queue) ∧
        (∀ p, p ≠ c.post → t.post p = s.post p) ∧ (∀ m, m ≠ n → t.call m = s.call m) ∧
        t = { s with timebase := t.timebase, calls := t.calls, posts := t.posts, segments := t.segments }) ∧
    (∀ c d due, s.call n = some c → c.state = .ringing → c.cadence = some d → c.ringDeadline = some due →
      let now := max s.timebase due
      ∃ t, exec (.ringDeadline n) s = .next t ∧ t.timebase = now ∧
        NoticeReaches (.callbackUnanswered (c.ref n) c.post c.owner c.origin ((now - d.began) / 1000)) 0 s t ∧
        (∀ l k, c.owner = some l → c.ownerChannel = some k → (t.channel l k).use = .free) ∧
        (s.pendingList = [] → t.call n = none ∧ (t.post c.post).call = none ∧
          t.abandonedList = s.abandonedList ∧ OthersKept n s t) ∧
        CallFrame { s with timebase := now } t) ∧
    ((∀ c, s.call n = some c → c.state ≠ .ringing) →
      exec (.ringPeriodStart n) s = .next s ∧ exec (.ringOnTimeEnd n) s = .next s ∧
      exec (.ringDeadline n) s = .next s)

/-- The comparison of a RUNNING line test ends it: PASS at or below the threshold as it stands and FAIL above, with
its errors: each bit returned that differs from the bit sent in its place and each bit missing, all 255 where no echo
came; the record absent and the sequence over, the path the test held released, echo no with ECHO_OFF requested, and
TEST_RESULT to both links. ECHO_OFF stands in the order queue in service, unless a call of the same post waited for
the path, whose SELECT would take its place. With no RUNNING test nothing changes (R31, R138, R139). The row carries
the bits returned: the model's choice, log 18. -/
def Obligations.TestComparisonEndsTheTest : Prop :=
  ∀ (g : SegId) (returned : Option (List Bool)) (s : State), s.supply.phase ≠ .inReset →
    (∀ x, (s.path g).test = some x → x.phase = .running →
      let bits := returned.getD []
      let errors := ((List.range 255).filter (fun k => decide (bits[k]? ≠ testSequence[k]?))).length
      let result : TestResult := if errors ≤ (s.segmentConfig g).testThreshold then .pass errors else .fail errors
      ∃ t, exec (.testComparisonEnd g returned) s = .next t ∧
        (t.path g).lastTest = some result ∧ (t.path g).test = none ∧ (t.path g).signal = none ∧
        (t.path g).holder ≠ .test ∧ (t.post ⟨g, x.addr⟩).echo = false ∧
        ((s.line g).feed.inService = true → (∀ y ∈ s.callRequests g, y.2.post ≠ ⟨g, x.addr⟩) →
          ⟨x.addr, .echoOff⟩ ∈ (t.poll g).queue) ∧
        NoticeReaches (.testResult ⟨g, x.addr⟩ x.requester result none) 0 s t ∧
        t.pendingList = s.pendingList ∧ t.created = s.created ∧ CallFrame s t) ∧
    ((∀ x, (s.path g).test = some x → x.phase ≠ .running) → exec (.testComparisonEnd g returned) s = .next s)

/-! ### Link frames -/

/-- A link frame exchanges its four samples and one message byte. A sample received on a FREE channel is discarded; a
FREE channel carries silence, the channel of a HELD call its other party, the owner channel of a CONNECTED call with
the path the sum of its post and the joined party; the byte sent is the next of the head block, or idle fill; and a
byte received that completes no block is kept in the assembly. The line ports send their next sample where it is due:
to a CONNECTED call's post the sum of its channels, to a TRANSFERRING one's the hold tone, from a RUNNING test the bit
of its sequence, else silence. STARTED_SENT takes a STARTED sent in full off the queue with all before it and sets the
flag (R119 to R121, R138, R155, R156, R160, R161). Silence is the sample 0, a frame mixes the other link's last
sample, and the line ports go by the frames of whichever links go on: the model's choice, log 14; the tones' and the
test's waveforms are free: the model's choice, log 13; STARTED_SENT: the model's choice, log 20; the byte and the
samples sent are made before the received byte is taken: the model's choice, log 38. -/
def Obligations.FramesExchangeSamplesAndBytes : Prop :=
  ∀ (l : Link) (s : State), s.supply.phase ≠ .inReset →
    (∀ (samples : Vector Sample 4) (byte : Byte) (lineIn : Vector Sample 8) (left : List Byte),
      scan ((s.link l).assembly ++ [byte]).length ((s.link l).assembly ++ [byte]) = ([], left) →
      let sum : Sample → Sample → Sample := fun x y =>
        BitVec.ofInt 16 (max (-32768) (min 32767 (x.toInt + y.toInt)))
      let due := s.framed.get l = true ∨ s.framed.get l.other = false
      ∃ t, exec (.linkFrame l samples byte lineIn) s = .next t ∧
        let hears : Link → Option ChanNo → Sample := fun m k => match k with
          | some j => (t.channel m j).heard
          | none => 0#16
        (t.link l).frames = (s.link l).frames + 1 ∧ (t.link l).assembly = left ∧
        (∀ k : ChanNo, t.channel l k = { s.channel l k with
          heard := if (s.channel l k).use = .free then 0#16 else samples[k]
          waitingTone := (s.channel l k).waitingTone.map (fun n => (n + 1) % 48000) }) ∧
        ((s.link l).queue = [] → (t.link l).transmittedByte = 0x3C#8 ∧ (t.link l).queue = []) ∧
        (∀ b rest, (s.link l).queue = b :: rest →
          (∀ x, b.bytes[(s.link l).sentBytes]? = some x → (t.link l).transmittedByte = x) ∧
          ((s.link l).sentBytes + 1 < b.bytes.length →
            (t.link l).queue = b :: rest ∧ (t.link l).sentBytes = (s.link l).sentBytes + 1) ∧
          (b.bytes.length ≤ (s.link l).sentBytes + 1 →
            (t.link l).queue = rest ∧ (t.link l).sentBytes = 0 ∧
            (t.link l).startedSent = ((s.link l).startedSent || b.isStarted))) ∧
        (∀ k : ChanNo, (s.channel l k).use = .free → (t.link l).transmitted[k] = 0#16) ∧
        (∀ (k : ChanNo) n c, (s.channel l k).use = .reserved n .owner → s.call n = some c → c.state = .held →
          (t.link l).transmitted[k] = hears l.other c.joinedChannel) ∧
        (∀ (k : ChanNo) n c, (s.channel l k).use = .connected n .owner → s.call n = some c → c.state = .connected →
          c.pathHeld = true → (t.link l).transmitted[k] = sum (lineIn[c.post.seg]) (hears l.other c.joinedChannel)) ∧
        (∀ g, (t.path g).speechIn = lineIn[g] ∧ t.line g = s.line g ∧ t.poll g = s.poll g ∧
          (t.path g).holder = (s.path g).holder ∧ (t.path g).test = (s.path g).test ∧
          (t.path g).grant = (s.path g).grant ∧ (t.path g).lastTest = (s.path g).lastTest) ∧
        (¬due → (∀ g, t.path g = { s.path g with speechIn := lineIn[g] }) ∧ t.framed = PerLink.both true) ∧
        (due → t.framed = (PerLink.both false).set l true ∧ ∀ g,
          (t.path g).holdTone = (s.path g).holdTone.map (fun n => (n + 1) % 24000) ∧
          ((s.path g).signal = none → (t.path g).signal = none) ∧
          (∀ x, (s.path g).signal = some x → (t.path g).signal = some (if x.sample < 2040 then
            { sample := x.sample + 1, register := if (x.sample + 1) % 8 = 0 then
                (x.register >>> 1) ||| (if x.register.getLsbD 0 ^^ x.register.getLsbD 2 ^^ x.register.getLsbD 3 ^^
                  x.register.getLsbD 4 then 0x80#8 else 0x00#8)
              else x.register } else x)) ∧
          ((s.path g).holder = .none → (t.path g).speechOut = 0#16) ∧
          (∀ x, (s.path g).holder = .test → (s.path g).signal = some x → (t.path g).speechOut =
            if x.sample < 2040 then Config.testSignalSample (x.register.getLsbD 0) x.sample else 0#16) ∧
          ∀ r c, (s.path g).holder = .call r → s.callOf r = some c →
            (c.state = .answered → (t.path g).speechOut = 0#16) ∧
            (∀ x, c.state = .connected → c.owner = some x →
              (t.path g).speechOut = sum (hears x c.ownerChannel) (hears x.other c.joinedChannel)) ∧
            ∀ n, c.state = .transferring → (s.path g).holdTone = some n → (t.path g).speechOut =
              if n < 1600 ∨ (3200 ≤ n ∧ n < 4800) then Config.holdToneSample n else 0#16) ∧
        t.link l.other = s.link l.other ∧
        (t.link l).up = (s.link l).up ∧ (t.link l).lossTimer = (s.link l).lossTimer ∧
        (t.link l).mode = (s.link l).mode ∧ (t.link l).offers = (s.link l).offers ∧
        (t.link l).transfers = (s.link l).transfers ∧ (t.link l).overrun = (s.link l).overrun ∧
        t = { s with links := t.links, segments := t.segments, framed := t.framed }) ∧
    (∀ sent b rest, (s.link l).queue = sent ++ b :: rest → b.isStarted = true → (∀ x ∈ sent, x.isStarted = false) →
      exec (.startedSent l) s =
        .next (modLink l (fun r => { r with queue := rest, sentBytes := 0, startedSent := true }) s)) ∧
    ((∀ x ∈ (s.link l).queue, x.isStarted = false) → exec (.startedSent l) s = .next s)

/-! ### Start-up and the supply -/

/-- LOADING ends whole: with a good image every table and the revision are the image's and the image state VALID; else
the tables are the empty ones, the revision 0 and the image state INVALID, and the image is unloadable from then on.
An image is good that has its marker, its size and its CRC, that no failed load has made unloadable and that comes
within the 800 ms. The phase is RUNNING, exactly the segments with feed enabled are pending, each 250 ms after the
pending one before it, and STARTED goes to each UP link it is due on. Outside LOADING the two events change nothing
(R18, R161, R175, R178). LOAD_TIMEOUT brings the timebase to the end of the 800 ms: the model's choice, log 3. The
size of the tables region is the part's own constant: the model's choice, log 5. -/
def Obligations.LoadingEndsWithTheImageOrEmpty : Prop :=
  ∀ (s : State),
    (s.supply.phase = .loading → ∀ (i : Instr) (good : Bool) (now : Nat),
      (i = .imageLoadEnd false ∧ now = s.timebase ∧
        good = decide (s.memory.marker = 0xA55A3CC3#32 ∧ s.memory.size = imageSize ∧ s.memory.crcGood = true ∧
          s.loadFailed = false ∧ ∀ due, s.manager.loadDue = some due → s.timebase ≤ due)) ∨
      (i = .imageLoadEnd true ∧ now = s.timebase ∧ good = false) ∨
      (i = .loadTimeout ∧ now = max s.timebase (s.manager.loadDue.getD 0) ∧ good = false) →
      ∃ t, exec i s = .next t ∧ t.supply = { s.supply with phase := .running } ∧ t.timebase = now ∧
        t.tables = (if good then s.memory.tables else Tables.withoutImage) ∧
        t.manager = { s.manager with loadDue := none,
                                     revision := if good then s.memory.revision else 0#16,
                                     image := if good then .valid s.memory.revision else .invalid } ∧
        t.memory = s.memory ∧ t.loadFailed = (if good then s.loadFailed else true) ∧
        (∀ g : SegId, (t.tables.segments[g]).feedEnabled = true →
          t.line g = { s.line g with
            startUp := true
            startUpAt := some (now + 250 * (allSegs.filter
              (fun k => decide (k < g) && (t.tables.segments[k]).feedEnabled)).length) }) ∧
        (∀ g : SegId, (t.tables.segments[g]).feedEnabled = false → t.line g = s.line g) ∧
        (∀ l, t.link l = if (s.link l).up = true ∧ (s.link l).startedSent = false then
          { s.link l with queue := (s.link l).queue ++ [.notice t.startedNotice] } else s.link l) ∧
        (∀ g, t.poll g = s.poll g ∧ t.path g = s.path g) ∧
        t = { s with supply := t.supply, timebase := now, tables := t.tables, manager := t.manager,
                     segments := t.segments, links := t.links, loadFailed := t.loadFailed }) ∧
    (s.supply.phase ≠ .loading → (∀ fault, exec (.imageLoadEnd fault) s = .next s) ∧ exec .loadTimeout s = .next s)

/-- The supply and the RESET pin: each way into reset gives every block its after-reset values, keeps the
configuration memory, records its cause, and clears the clock but for the pin; a period already running keeps
POWER_ON, and a dip in it gives SUPPLY_DIP. The hold-off runs 100 ms from the return of the supply; the part leaves
for LOADING when neither the supply nor the pin holds it. The clock counts on but in a POWER_ON or SUPPLY_DIP reset.
An image that is unloadable stays so, but for one whose save was in its read-back: the model's choice, log 5 (R17,
R173 to R175). The timebase is brought to the hold-off's and the tick's time: the model's choice, log 3; the readings
and the samples are set back and the on-battery level kept: the model's choice, log 6; the next whole second is
counted from leaving a reset that cleared the clock: the model's choice, log 23; the tables, the revision and the image
state stand at the empty values until the end of LOADING: the model's choice, log 27; silence, the ports' clock and the
waveforms' counters start at 0: the model's choice, logs 13 and 14. -/
def Obligations.SupplyAndPinResetThePart : Prop :=
  ∀ (s : State),
    let blocks := fun (supply : Supply) (clock : Clock) (t : State) =>
      t = { State.reset with supply := supply, clock := clock, timebase := s.timebase, memory := s.memory,
                             onBattery := s.onBattery, pending := s.pending,
                             loadFailed := s.loadFailed && s.manager.save.all (fun v => v.stage ≠ .readingBack),
                             manager := { State.reset.manager with loadDue := none } }
    let cleared : Clock := { seconds := 0#32, isSet := false, nextSecond := s.timebase + 1000 }
    (∃ t, exec .powerOn s = .next t ∧
      blocks { s.supply with phase := .inReset, cause := .powerOn, senseLow := true, holdOff := none } cleared t) ∧
    (∃ t, exec .supplySenseLow s = .next t ∧
      blocks { s.supply with phase := .inReset, senseLow := true, holdOff := none, cause :=
        if s.supply.phase = .inReset ∧ s.supply.cause = .powerOn then .powerOn else .supplyDip } cleared t) ∧
    (s.supply.phase ≠ .inReset → ∃ t, exec .resetPinAssert s = .next t ∧
      blocks { s.supply with phase := .inReset, cause := .resetPin, pinLow := true } s.clock t) ∧
    (s.supply.phase = .inReset → exec .resetPinAssert s = .next { s with supply := { s.supply with pinLow := true } }) ∧
    (s.supply.phase = .inReset → s.supply.senseLow = true → exec .supplySenseGood s =
      .next { s with supply := { s.supply with senseLow := false, holdOff := some (s.timebase + 100) } }) ∧
    (s.supply.phase ≠ .inReset ∨ s.supply.senseLow = false → exec .supplySenseGood s = .next s) ∧
    (∀ due, s.supply.holdOff = some due → s.supply.phase = .inReset → s.supply.senseLow = false →
      let now := max s.timebase due
      if s.supply.pinLow = true then exec .holdOffExpiry s =
        .next { s with timebase := now, supply := { s.supply with holdOff := none } }
      else ∃ t, exec .holdOffExpiry s = .next t ∧
        t.supply = { s.supply with phase := .loading, holdOff := none } ∧ t.timebase = now ∧
        t.manager = { s.manager with loadDue := some (now + 800) } ∧
        t.clock = (if s.supply.cause = .resetPin then s.clock
          else { seconds := 0#32, isSet := false, nextSecond := now + 1000 }) ∧
        t = { s with supply := t.supply, timebase := now, manager := t.manager, clock := t.clock }) ∧
    (s.supply.holdOff = none → exec .holdOffExpiry s = .next s) ∧
    (s.supply.phase = .inReset →
      if s.supply.senseLow = true ∨ s.supply.holdOff ≠ none then
        exec .resetPinRelease s = .next { s with supply := { s.supply with pinLow := false } }
      else ∃ t, exec .resetPinRelease s = .next t ∧
        t.supply = { s.supply with phase := .loading, pinLow := false } ∧
        t.manager = { s.manager with loadDue := some (s.timebase + 800) } ∧
        t.clock = (if s.supply.cause = .resetPin then s.clock
          else { seconds := 0#32, isSet := false, nextSecond := s.timebase + 1000 }) ∧
        t = { s with supply := t.supply, manager := t.manager, clock := t.clock }) ∧
    (s.supply.phase ≠ .inReset →
      exec .resetPinRelease s = .next { s with supply := { s.supply with pinLow := false } }) ∧
    exec .timeClockTick s =
      if s.supply.phase = .inReset ∧ s.supply.cause ≠ .resetPin then .next s
      else .next { s with timebase := max s.timebase s.clock.nextSecond, clock :=
        { s.clock with seconds := s.clock.seconds + 1, nextSecond := s.clock.nextSecond + 1000 } }

/-! ### Pure rules -/

/-- The filtered distance, as R59 states it whole: absent it takes the sample; present it moves by the difference divided by
8 and truncated toward zero, or by one metre toward the sample where that is 0; the step is never larger than the
difference, so F does not pass the sample, and it stays between the smallest and the largest sample since it was set, and
within 65535; an EARLY sample does not reach the filter, and an OVER_RANGE one reaches it as 65535. -/
def Obligations.FilterMovesTowardTheSample : Prop :=
  (∀ S, filterDistance none S = S) ∧
  (∀ F S : Nat, F ≤ 65535 → S ≤ 65535 →
    let d : Int := (S : Int) - (F : Int)
    let step : Int := (filterDistance (some F) S : Int) - (F : Int)
    (-65535 ≤ d ∧ d ≤ 65535) ∧ (d.tdiv 8 ≠ 0 → step = d.tdiv 8) ∧ (d.tdiv 8 = 0 → 0 < d → step = 1) ∧
    (d.tdiv 8 = 0 → d < 0 → step = -1) ∧ (d = 0 → step = 0) ∧ step.natAbs ≤ d.natAbs ∧
    (F ≠ S → 1 ≤ step.natAbs) ∧ (0 ≤ d → 0 ≤ step) ∧ (d ≤ 0 → step ≤ 0)) ∧
  (∀ (S : Nat) (more : List Nat) (lo hi : Nat), hi ≤ 65535 → (∀ x ∈ S :: more, lo ≤ x ∧ x ≤ hi) →
    let F := more.foldl (fun f x => filterDistance (some f) x) (filterDistance none S)
    lo ≤ F ∧ F ≤ hi) ∧
  (∀ F, nextFiltered F .early = F) ∧
  (∀ F m overLimit, nextFiltered F (.distance m overLimit) = some (filterDistance F m)) ∧
  ∀ D T K m, rangeSample D T K = .distance m true → m = 65535

/-- The waiting order holds exactly the waiting calls, by priority descending and, among equal priorities, in creation
order; the call-class result is the reporting CALL entry that is true with the highest weight, the lowest number between
equals, else DEFAULT with its weight (R49, R79). -/
def Obligations.WaitingOrderAndClassResult : Prop :=
  (∀ s : State, s.waitingOrder.Perm (s.callsInOrder.filter (fun x => x.2.state.waiting)) ∧
    s.waitingOrder.Pairwise (fun x y => y.2.priority ≤ x.2.priority) ∧
    ∀ p, s.waitingOrder.filter (fun x => x.2.priority = p) =
      s.callsInOrder.filter (fun x => x.2.state.waiting && x.2.priority = p)) ∧
  ∀ (weight : Nat) (results : List (EntryNo × ClassEntry × Bool)),
    let counts := fun (x : EntryNo × ClassEntry × Bool) =>
      x.2.2 = true ∧ x.2.1.reports = true ∧ x.2.1.kind = .call
    ((∀ x ∈ results, ¬counts x) → classResult weight results = ⟨.default, weight⟩) ∧
    ∀ before x after, results = before ++ x :: after → counts x →
      (∀ y ∈ before, counts y → y.2.1.weight < x.2.1.weight) →
      (∀ y ∈ after, counts y → y.2.1.weight ≤ x.2.1.weight) →
      classResult weight results = ⟨.entry x.1, x.2.1.weight⟩

/-! ### Invariants that every step keeps -/

/-- Every step keeps, each by itself: order queues with one entry per address (R31); LOCKED exactly at a trip count of 3
(R10, R12); one link ACCEPTING (R143); the missed and mismatch counts, priorities and transfer counts in range (R21, R56,
R77, R94); the abandoned list of at most 16 posts, none twice (R83); and the part in reset exactly while the supply, the
hold-off or the pin holds it (R173). -/
def Obligations.StepsKeepQueuesTripsModesAndCounts : Prop :=
  ∀ s t : State, step s = .next t →
    (QueuesDistinct s → QueuesDistinct t) ∧ (TripsLegal s → TripsLegal t) ∧ (SomeAccepting s → SomeAccepting t) ∧
    (CountsInRange s → CountsInRange t) ∧ (AbandonedOk s.abandonedList → AbandonedOk t.abandonedList) ∧
    (ResetHeld s → ResetHeld t)

/-- Every step keeps an owner on exactly the owned calls and the creation order on exactly the records in use (R73, R74);
nothing begun outside RUNNING (R17, R175); and, where these hold, the offers in agreement with the links: the
outstanding-offer counts, the depths, and no offer of an OFFERED call to a link DOWN or not ACCEPTING (R99); the channel
table in agreement with the calls (R119, R121); and the queue-load flag set at 16 and cleared at 12, a change of it sending
QUEUE_LOAD to each UP link (R90). -/
def Obligations.StepsKeepOwnersAndCreationOrder : Prop :=
  ∀ s t : State, step s = .next t →
    (OwnersMatch s → OwnersMatch t) ∧ (CreationExact s → CreationExact t) ∧
    (IdleOutsideRunning s → IdleOutsideRunning t) ∧
    (OwnersMatch s → CreationExact s →
      (IdleOutsideRunning s → OffersMatch s → OffersMatch t) ∧ (ChannelsMatch s → ChannelsMatch t) ∧
      (LoadMatches s → LoadMatches t ∧
        ((∀ i, s.pending.head? = some i → i.bringsBytes = false) → t.queueLoad ≠ s.queueLoad → ∀ l,
          (s.link l).up = true → (t.link l).up = true →
          ∃ waiting entries, Told (.queueLoad t.queueLoad waiting entries) l t)))

/-- Every step keeps posts and calls naming one another, and the pending list and the pending marks in agreement (R75,
R80); and, with the owners and the creation order exact, the speech paths in agreement with calls and tests: one holder at
most, a call's path and request, the grant mark, the tones and the selected posts (R112 to R117, R121, R138). -/
def Obligations.StepsKeepPostsAndCallsTogether : Prop :=
  ∀ s t : State, CallPartsMatch s → step s = .next t →
    CallPartsMatch t ∧ (OwnersMatch s → CreationExact s → PathsMatch s → PathsMatch t)

/-- Every step keeps every stored table, the image and a snapshot in the ranges their writes give them (R3, R53, R110, R132,
R159, R164, R167 to R169). -/
def Obligations.StepsKeepTheTablesInRange : Prop :=
  ∀ s t : State, TablesInRange s → step s = .next t → TablesInRange t

/-! ### Receiving a block -/

/-- A block framed as 12.1 gives it (start marker, length, tag, type, body and CRC), received byte by byte by an
assembly that hunts, is taken once, at its last byte, as the command of its type and body; the bytes before it change
nothing but the assembly. A received block with a bad length or a bad CRC is discarded and changes nothing, where no
later byte of it is a start marker (R156, R158). A block is taken at its last byte: the model's choice, log 11; the
bytes of BAD_BLOCK run through the assembly: the model's choice, log 12. -/
def Obligations.FramedBlocksAreTakenOnceAndBadOnesDiscarded : Prop :=
  (∀ (l : Link) (tag : Tag) (type : Byte) (body : List Byte) (s : State), (s.link l).assembly = [] →
    body.length ≤ 1021 →
    let content := bytes16 (BitVec.ofNat 16 (3 + body.length)) ++ bytes16 tag ++ type :: body
    let bytes := 0xC5#8 :: (content ++ bytes16 (crc16 content))
    bytes.foldl (fun s b => receiveByte l b s) s = takeBlock l ⟨tag, type, body⟩ s ∧
    ∀ k, k < bytes.length → (bytes.take k).foldl (fun s b => receiveByte l b s) s =
      modLink l (fun r => { r with assembly := bytes.take k }) s) ∧
  ∀ (l : Link) (l1 l0 : Byte) (rest : List Byte) (s : State), s.supply.phase ≠ .inReset → (s.link l).assembly = [] →
    l1 ≠ 0xC5#8 → l0 ≠ 0xC5#8 → (∀ b ∈ rest, b ≠ 0xC5#8) →
    let length := (l1 ++ l0 : BitVec 16).toNat
    (length < 3 ∨ 1024 < length ∨
      (length + 2 ≤ rest.length ∧ bytes16 (crc16 (l1 :: l0 :: rest.take length)) ≠ (rest.drop length).take 2)) →
    exec (.badBlock l (0xC5#8 :: l1 :: l0 :: rest)) s = .next s
end

