-- ==== Sys2Proof/Laws/State.lean ====
section
/-! SUPPORT. One lemma for each field of State that each record update leaves alone, and what each update reads
back as. No later proof unfolds an update. -/

namespace Sys2Proof.Machine

open Sys2Proof

@[simp] theorem modLink_supply (l : Link) (f : LinkRec → LinkRec) (s : State) : (modLink l f s).supply = s.supply := rfl
@[simp] theorem modLink_timebase (l : Link) (f : LinkRec → LinkRec) (s : State) : (modLink l f s).timebase = s.timebase := rfl
@[simp] theorem modLink_clock (l : Link) (f : LinkRec → LinkRec) (s : State) : (modLink l f s).clock = s.clock := rfl
@[simp] theorem modLink_manager (l : Link) (f : LinkRec → LinkRec) (s : State) : (modLink l f s).manager = s.manager := rfl
@[simp] theorem modLink_tables (l : Link) (f : LinkRec → LinkRec) (s : State) : (modLink l f s).tables = s.tables := rfl
@[simp] theorem modLink_memory (l : Link) (f : LinkRec → LinkRec) (s : State) : (modLink l f s).memory = s.memory := rfl
@[simp] theorem modLink_loadFailed (l : Link) (f : LinkRec → LinkRec) (s : State) : (modLink l f s).loadFailed = s.loadFailed := rfl
@[simp] theorem modLink_segments (l : Link) (f : LinkRec → LinkRec) (s : State) : (modLink l f s).segments = s.segments := rfl
@[simp] theorem modLink_posts (l : Link) (f : LinkRec → LinkRec) (s : State) : (modLink l f s).posts = s.posts := rfl
@[simp] theorem modLink_calls (l : Link) (f : LinkRec → LinkRec) (s : State) : (modLink l f s).calls = s.calls := rfl
@[simp] theorem modLink_created (l : Link) (f : LinkRec → LinkRec) (s : State) : (modLink l f s).created = s.created := rfl
@[simp] theorem modLink_nextSequence (l : Link) (f : LinkRec → LinkRec) (s : State) : (modLink l f s).nextSequence = s.nextSequence := rfl
@[simp] theorem modLink_queueLoad (l : Link) (f : LinkRec → LinkRec) (s : State) : (modLink l f s).queueLoad = s.queueLoad := rfl
@[simp] theorem modLink_pendingList (l : Link) (f : LinkRec → LinkRec) (s : State) : (modLink l f s).pendingList = s.pendingList := rfl
@[simp] theorem modLink_abandonedList (l : Link) (f : LinkRec → LinkRec) (s : State) : (modLink l f s).abandonedList = s.abandonedList := rfl
@[simp] theorem modLink_requests (l : Link) (f : LinkRec → LinkRec) (s : State) : (modLink l f s).requests = s.requests := rfl
@[simp] theorem modLink_onBattery (l : Link) (f : LinkRec → LinkRec) (s : State) : (modLink l f s).onBattery = s.onBattery := rfl
@[simp] theorem modLink_framed (l : Link) (f : LinkRec → LinkRec) (s : State) : (modLink l f s).framed = s.framed := rfl
@[simp] theorem modLink_pending (l : Link) (f : LinkRec → LinkRec) (s : State) : (modLink l f s).pending = s.pending := rfl

@[simp] theorem modSegment_supply (g : SegId) (f : Segment → Segment) (s : State) : (modSegment g f s).supply = s.supply := rfl
@[simp] theorem modSegment_timebase (g : SegId) (f : Segment → Segment) (s : State) : (modSegment g f s).timebase = s.timebase := rfl
@[simp] theorem modSegment_clock (g : SegId) (f : Segment → Segment) (s : State) : (modSegment g f s).clock = s.clock := rfl
@[simp] theorem modSegment_manager (g : SegId) (f : Segment → Segment) (s : State) : (modSegment g f s).manager = s.manager := rfl
@[simp] theorem modSegment_tables (g : SegId) (f : Segment → Segment) (s : State) : (modSegment g f s).tables = s.tables := rfl
@[simp] theorem modSegment_memory (g : SegId) (f : Segment → Segment) (s : State) : (modSegment g f s).memory = s.memory := rfl
@[simp] theorem modSegment_loadFailed (g : SegId) (f : Segment → Segment) (s : State) : (modSegment g f s).loadFailed = s.loadFailed := rfl
@[simp] theorem modSegment_links (g : SegId) (f : Segment → Segment) (s : State) : (modSegment g f s).links = s.links := rfl
@[simp] theorem modSegment_posts (g : SegId) (f : Segment → Segment) (s : State) : (modSegment g f s).posts = s.posts := rfl
@[simp] theorem modSegment_calls (g : SegId) (f : Segment → Segment) (s : State) : (modSegment g f s).calls = s.calls := rfl
@[simp] theorem modSegment_created (g : SegId) (f : Segment → Segment) (s : State) : (modSegment g f s).created = s.created := rfl
@[simp] theorem modSegment_nextSequence (g : SegId) (f : Segment → Segment) (s : State) : (modSegment g f s).nextSequence = s.nextSequence := rfl
@[simp] theorem modSegment_queueLoad (g : SegId) (f : Segment → Segment) (s : State) : (modSegment g f s).queueLoad = s.queueLoad := rfl
@[simp] theorem modSegment_pendingList (g : SegId) (f : Segment → Segment) (s : State) : (modSegment g f s).pendingList = s.pendingList := rfl
@[simp] theorem modSegment_abandonedList (g : SegId) (f : Segment → Segment) (s : State) : (modSegment g f s).abandonedList = s.abandonedList := rfl
@[simp] theorem modSegment_requests (g : SegId) (f : Segment → Segment) (s : State) : (modSegment g f s).requests = s.requests := rfl
@[simp] theorem modSegment_onBattery (g : SegId) (f : Segment → Segment) (s : State) : (modSegment g f s).onBattery = s.onBattery := rfl
@[simp] theorem modSegment_framed (g : SegId) (f : Segment → Segment) (s : State) : (modSegment g f s).framed = s.framed := rfl
@[simp] theorem modSegment_pending (g : SegId) (f : Segment → Segment) (s : State) : (modSegment g f s).pending = s.pending := rfl

@[simp] theorem modLine_supply (g : SegId) (f : LineUnit → LineUnit) (s : State) : (modLine g f s).supply = s.supply := rfl
@[simp] theorem modLine_timebase (g : SegId) (f : LineUnit → LineUnit) (s : State) : (modLine g f s).timebase = s.timebase := rfl
@[simp] theorem modLine_clock (g : SegId) (f : LineUnit → LineUnit) (s : State) : (modLine g f s).clock = s.clock := rfl
@[simp] theorem modLine_manager (g : SegId) (f : LineUnit → LineUnit) (s : State) : (modLine g f s).manager = s.manager := rfl
@[simp] theorem modLine_tables (g : SegId) (f : LineUnit → LineUnit) (s : State) : (modLine g f s).tables = s.tables := rfl
@[simp] theorem modLine_memory (g : SegId) (f : LineUnit → LineUnit) (s : State) : (modLine g f s).memory = s.memory := rfl
@[simp] theorem modLine_loadFailed (g : SegId) (f : LineUnit → LineUnit) (s : State) : (modLine g f s).loadFailed = s.loadFailed := rfl
@[simp] theorem modLine_links (g : SegId) (f : LineUnit → LineUnit) (s : State) : (modLine g f s).links = s.links := rfl
@[simp] theorem modLine_posts (g : SegId) (f : LineUnit → LineUnit) (s : State) : (modLine g f s).posts = s.posts := rfl
@[simp] theorem modLine_calls (g : SegId) (f : LineUnit → LineUnit) (s : State) : (modLine g f s).calls = s.calls := rfl
@[simp] theorem modLine_created (g : SegId) (f : LineUnit → LineUnit) (s : State) : (modLine g f s).created = s.created := rfl
@[simp] theorem modLine_nextSequence (g : SegId) (f : LineUnit → LineUnit) (s : State) : (modLine g f s).nextSequence = s.nextSequence := rfl
@[simp] theorem modLine_queueLoad (g : SegId) (f : LineUnit → LineUnit) (s : State) : (modLine g f s).queueLoad = s.queueLoad := rfl
@[simp] theorem modLine_pendingList (g : SegId) (f : LineUnit → LineUnit) (s : State) : (modLine g f s).pendingList = s.pendingList := rfl
@[simp] theorem modLine_abandonedList (g : SegId) (f : LineUnit → LineUnit) (s : State) : (modLine g f s).abandonedList = s.abandonedList := rfl
@[simp] theorem modLine_requests (g : SegId) (f : LineUnit → LineUnit) (s : State) : (modLine g f s).requests = s.requests := rfl
@[simp] theorem modLine_onBattery (g : SegId) (f : LineUnit → LineUnit) (s : State) : (modLine g f s).onBattery = s.onBattery := rfl
@[simp] theorem modLine_framed (g : SegId) (f : LineUnit → LineUnit) (s : State) : (modLine g f s).framed = s.framed := rfl
@[simp] theorem modLine_pending (g : SegId) (f : LineUnit → LineUnit) (s : State) : (modLine g f s).pending = s.pending := rfl

@[simp] theorem modPoll_supply (g : SegId) (f : Poll → Poll) (s : State) : (modPoll g f s).supply = s.supply := rfl
@[simp] theorem modPoll_timebase (g : SegId) (f : Poll → Poll) (s : State) : (modPoll g f s).timebase = s.timebase := rfl
@[simp] theorem modPoll_clock (g : SegId) (f : Poll → Poll) (s : State) : (modPoll g f s).clock = s.clock := rfl
@[simp] theorem modPoll_manager (g : SegId) (f : Poll → Poll) (s : State) : (modPoll g f s).manager = s.manager := rfl
@[simp] theorem modPoll_tables (g : SegId) (f : Poll → Poll) (s : State) : (modPoll g f s).tables = s.tables := rfl
@[simp] theorem modPoll_memory (g : SegId) (f : Poll → Poll) (s : State) : (modPoll g f s).memory = s.memory := rfl
@[simp] theorem modPoll_loadFailed (g : SegId) (f : Poll → Poll) (s : State) : (modPoll g f s).loadFailed = s.loadFailed := rfl
@[simp] theorem modPoll_links (g : SegId) (f : Poll → Poll) (s : State) : (modPoll g f s).links = s.links := rfl
@[simp] theorem modPoll_posts (g : SegId) (f : Poll → Poll) (s : State) : (modPoll g f s).posts = s.posts := rfl
@[simp] theorem modPoll_calls (g : SegId) (f : Poll → Poll) (s : State) : (modPoll g f s).calls = s.calls := rfl
@[simp] theorem modPoll_created (g : SegId) (f : Poll → Poll) (s : State) : (modPoll g f s).created = s.created := rfl
@[simp] theorem modPoll_nextSequence (g : SegId) (f : Poll → Poll) (s : State) : (modPoll g f s).nextSequence = s.nextSequence := rfl
@[simp] theorem modPoll_queueLoad (g : SegId) (f : Poll → Poll) (s : State) : (modPoll g f s).queueLoad = s.queueLoad := rfl
@[simp] theorem modPoll_pendingList (g : SegId) (f : Poll → Poll) (s : State) : (modPoll g f s).pendingList = s.pendingList := rfl
@[simp] theorem modPoll_abandonedList (g : SegId) (f : Poll → Poll) (s : State) : (modPoll g f s).abandonedList = s.abandonedList := rfl
@[simp] theorem modPoll_requests (g : SegId) (f : Poll → Poll) (s : State) : (modPoll g f s).requests = s.requests := rfl
@[simp] theorem modPoll_onBattery (g : SegId) (f : Poll → Poll) (s : State) : (modPoll g f s).onBattery = s.onBattery := rfl
@[simp] theorem modPoll_framed (g : SegId) (f : Poll → Poll) (s : State) : (modPoll g f s).framed = s.framed := rfl
@[simp] theorem modPoll_pending (g : SegId) (f : Poll → Poll) (s : State) : (modPoll g f s).pending = s.pending := rfl

@[simp] theorem modPath_supply (g : SegId) (f : Path → Path) (s : State) : (modPath g f s).supply = s.supply := rfl
@[simp] theorem modPath_timebase (g : SegId) (f : Path → Path) (s : State) : (modPath g f s).timebase = s.timebase := rfl
@[simp] theorem modPath_clock (g : SegId) (f : Path → Path) (s : State) : (modPath g f s).clock = s.clock := rfl
@[simp] theorem modPath_manager (g : SegId) (f : Path → Path) (s : State) : (modPath g f s).manager = s.manager := rfl
@[simp] theorem modPath_tables (g : SegId) (f : Path → Path) (s : State) : (modPath g f s).tables = s.tables := rfl
@[simp] theorem modPath_memory (g : SegId) (f : Path → Path) (s : State) : (modPath g f s).memory = s.memory := rfl
@[simp] theorem modPath_loadFailed (g : SegId) (f : Path → Path) (s : State) : (modPath g f s).loadFailed = s.loadFailed := rfl
@[simp] theorem modPath_links (g : SegId) (f : Path → Path) (s : State) : (modPath g f s).links = s.links := rfl
@[simp] theorem modPath_posts (g : SegId) (f : Path → Path) (s : State) : (modPath g f s).posts = s.posts := rfl
@[simp] theorem modPath_calls (g : SegId) (f : Path → Path) (s : State) : (modPath g f s).calls = s.calls := rfl
@[simp] theorem modPath_created (g : SegId) (f : Path → Path) (s : State) : (modPath g f s).created = s.created := rfl
@[simp] theorem modPath_nextSequence (g : SegId) (f : Path → Path) (s : State) : (modPath g f s).nextSequence = s.nextSequence := rfl
@[simp] theorem modPath_queueLoad (g : SegId) (f : Path → Path) (s : State) : (modPath g f s).queueLoad = s.queueLoad := rfl
@[simp] theorem modPath_pendingList (g : SegId) (f : Path → Path) (s : State) : (modPath g f s).pendingList = s.pendingList := rfl
@[simp] theorem modPath_abandonedList (g : SegId) (f : Path → Path) (s : State) : (modPath g f s).abandonedList = s.abandonedList := rfl
@[simp] theorem modPath_requests (g : SegId) (f : Path → Path) (s : State) : (modPath g f s).requests = s.requests := rfl
@[simp] theorem modPath_onBattery (g : SegId) (f : Path → Path) (s : State) : (modPath g f s).onBattery = s.onBattery := rfl
@[simp] theorem modPath_framed (g : SegId) (f : Path → Path) (s : State) : (modPath g f s).framed = s.framed := rfl
@[simp] theorem modPath_pending (g : SegId) (f : Path → Path) (s : State) : (modPath g f s).pending = s.pending := rfl

@[simp] theorem modPost_supply (p : PostId) (f : Post → Post) (s : State) : (modPost p f s).supply = s.supply := rfl
@[simp] theorem modPost_timebase (p : PostId) (f : Post → Post) (s : State) : (modPost p f s).timebase = s.timebase := rfl
@[simp] theorem modPost_clock (p : PostId) (f : Post → Post) (s : State) : (modPost p f s).clock = s.clock := rfl
@[simp] theorem modPost_manager (p : PostId) (f : Post → Post) (s : State) : (modPost p f s).manager = s.manager := rfl
@[simp] theorem modPost_tables (p : PostId) (f : Post → Post) (s : State) : (modPost p f s).tables = s.tables := rfl
@[simp] theorem modPost_memory (p : PostId) (f : Post → Post) (s : State) : (modPost p f s).memory = s.memory := rfl
@[simp] theorem modPost_loadFailed (p : PostId) (f : Post → Post) (s : State) : (modPost p f s).loadFailed = s.loadFailed := rfl
@[simp] theorem modPost_links (p : PostId) (f : Post → Post) (s : State) : (modPost p f s).links = s.links := rfl
@[simp] theorem modPost_segments (p : PostId) (f : Post → Post) (s : State) : (modPost p f s).segments = s.segments := rfl
@[simp] theorem modPost_calls (p : PostId) (f : Post → Post) (s : State) : (modPost p f s).calls = s.calls := rfl
@[simp] theorem modPost_created (p : PostId) (f : Post → Post) (s : State) : (modPost p f s).created = s.created := rfl
@[simp] theorem modPost_nextSequence (p : PostId) (f : Post → Post) (s : State) : (modPost p f s).nextSequence = s.nextSequence := rfl
@[simp] theorem modPost_queueLoad (p : PostId) (f : Post → Post) (s : State) : (modPost p f s).queueLoad = s.queueLoad := rfl
@[simp] theorem modPost_pendingList (p : PostId) (f : Post → Post) (s : State) : (modPost p f s).pendingList = s.pendingList := rfl
@[simp] theorem modPost_abandonedList (p : PostId) (f : Post → Post) (s : State) : (modPost p f s).abandonedList = s.abandonedList := rfl
@[simp] theorem modPost_requests (p : PostId) (f : Post → Post) (s : State) : (modPost p f s).requests = s.requests := rfl
@[simp] theorem modPost_onBattery (p : PostId) (f : Post → Post) (s : State) : (modPost p f s).onBattery = s.onBattery := rfl
@[simp] theorem modPost_framed (p : PostId) (f : Post → Post) (s : State) : (modPost p f s).framed = s.framed := rfl
@[simp] theorem modPost_pending (p : PostId) (f : Post → Post) (s : State) : (modPost p f s).pending = s.pending := rfl

@[simp] theorem putCall_supply (n : CallNo) (c : Option Call) (s : State) : (putCall n c s).supply = s.supply := rfl
@[simp] theorem putCall_timebase (n : CallNo) (c : Option Call) (s : State) : (putCall n c s).timebase = s.timebase := rfl
@[simp] theorem putCall_clock (n : CallNo) (c : Option Call) (s : State) : (putCall n c s).clock = s.clock := rfl
@[simp] theorem putCall_manager (n : CallNo) (c : Option Call) (s : State) : (putCall n c s).manager = s.manager := rfl
@[simp] theorem putCall_tables (n : CallNo) (c : Option Call) (s : State) : (putCall n c s).tables = s.tables := rfl
@[simp] theorem putCall_memory (n : CallNo) (c : Option Call) (s : State) : (putCall n c s).memory = s.memory := rfl
@[simp] theorem putCall_loadFailed (n : CallNo) (c : Option Call) (s : State) : (putCall n c s).loadFailed = s.loadFailed := rfl
@[simp] theorem putCall_links (n : CallNo) (c : Option Call) (s : State) : (putCall n c s).links = s.links := rfl
@[simp] theorem putCall_segments (n : CallNo) (c : Option Call) (s : State) : (putCall n c s).segments = s.segments := rfl
@[simp] theorem putCall_posts (n : CallNo) (c : Option Call) (s : State) : (putCall n c s).posts = s.posts := rfl
@[simp] theorem putCall_created (n : CallNo) (c : Option Call) (s : State) : (putCall n c s).created = s.created := rfl
@[simp] theorem putCall_nextSequence (n : CallNo) (c : Option Call) (s : State) : (putCall n c s).nextSequence = s.nextSequence := rfl
@[simp] theorem putCall_queueLoad (n : CallNo) (c : Option Call) (s : State) : (putCall n c s).queueLoad = s.queueLoad := rfl
@[simp] theorem putCall_pendingList (n : CallNo) (c : Option Call) (s : State) : (putCall n c s).pendingList = s.pendingList := rfl
@[simp] theorem putCall_abandonedList (n : CallNo) (c : Option Call) (s : State) : (putCall n c s).abandonedList = s.abandonedList := rfl
@[simp] theorem putCall_requests (n : CallNo) (c : Option Call) (s : State) : (putCall n c s).requests = s.requests := rfl
@[simp] theorem putCall_onBattery (n : CallNo) (c : Option Call) (s : State) : (putCall n c s).onBattery = s.onBattery := rfl
@[simp] theorem putCall_framed (n : CallNo) (c : Option Call) (s : State) : (putCall n c s).framed = s.framed := rfl
@[simp] theorem putCall_pending (n : CallNo) (c : Option Call) (s : State) : (putCall n c s).pending = s.pending := rfl

@[simp] theorem modCall_supply (n : CallNo) (f : Call → Call) (s : State) : (modCall n f s).supply = s.supply := rfl
@[simp] theorem modCall_timebase (n : CallNo) (f : Call → Call) (s : State) : (modCall n f s).timebase = s.timebase := rfl
@[simp] theorem modCall_clock (n : CallNo) (f : Call → Call) (s : State) : (modCall n f s).clock = s.clock := rfl
@[simp] theorem modCall_manager (n : CallNo) (f : Call → Call) (s : State) : (modCall n f s).manager = s.manager := rfl
@[simp] theorem modCall_tables (n : CallNo) (f : Call → Call) (s : State) : (modCall n f s).tables = s.tables := rfl
@[simp] theorem modCall_memory (n : CallNo) (f : Call → Call) (s : State) : (modCall n f s).memory = s.memory := rfl
@[simp] theorem modCall_loadFailed (n : CallNo) (f : Call → Call) (s : State) : (modCall n f s).loadFailed = s.loadFailed := rfl
@[simp] theorem modCall_links (n : CallNo) (f : Call → Call) (s : State) : (modCall n f s).links = s.links := rfl
@[simp] theorem modCall_segments (n : CallNo) (f : Call → Call) (s : State) : (modCall n f s).segments = s.segments := rfl
@[simp] theorem modCall_posts (n : CallNo) (f : Call → Call) (s : State) : (modCall n f s).posts = s.posts := rfl
@[simp] theorem modCall_created (n : CallNo) (f : Call → Call) (s : State) : (modCall n f s).created = s.created := rfl
@[simp] theorem modCall_nextSequence (n : CallNo) (f : Call → Call) (s : State) : (modCall n f s).nextSequence = s.nextSequence := rfl
@[simp] theorem modCall_queueLoad (n : CallNo) (f : Call → Call) (s : State) : (modCall n f s).queueLoad = s.queueLoad := rfl
@[simp] theorem modCall_pendingList (n : CallNo) (f : Call → Call) (s : State) : (modCall n f s).pendingList = s.pendingList := rfl
@[simp] theorem modCall_abandonedList (n : CallNo) (f : Call → Call) (s : State) : (modCall n f s).abandonedList = s.abandonedList := rfl
@[simp] theorem modCall_requests (n : CallNo) (f : Call → Call) (s : State) : (modCall n f s).requests = s.requests := rfl
@[simp] theorem modCall_onBattery (n : CallNo) (f : Call → Call) (s : State) : (modCall n f s).onBattery = s.onBattery := rfl
@[simp] theorem modCall_framed (n : CallNo) (f : Call → Call) (s : State) : (modCall n f s).framed = s.framed := rfl
@[simp] theorem modCall_pending (n : CallNo) (f : Call → Call) (s : State) : (modCall n f s).pending = s.pending := rfl

@[simp] theorem modChannel_supply (l : Link) (k : ChanNo) (f : Channel → Channel) (s : State) : (modChannel l k f s).supply = s.supply := rfl
@[simp] theorem modChannel_timebase (l : Link) (k : ChanNo) (f : Channel → Channel) (s : State) : (modChannel l k f s).timebase = s.timebase := rfl
@[simp] theorem modChannel_clock (l : Link) (k : ChanNo) (f : Channel → Channel) (s : State) : (modChannel l k f s).clock = s.clock := rfl
@[simp] theorem modChannel_manager (l : Link) (k : ChanNo) (f : Channel → Channel) (s : State) : (modChannel l k f s).manager = s.manager := rfl
@[simp] theorem modChannel_tables (l : Link) (k : ChanNo) (f : Channel → Channel) (s : State) : (modChannel l k f s).tables = s.tables := rfl
@[simp] theorem modChannel_memory (l : Link) (k : ChanNo) (f : Channel → Channel) (s : State) : (modChannel l k f s).memory = s.memory := rfl
@[simp] theorem modChannel_loadFailed (l : Link) (k : ChanNo) (f : Channel → Channel) (s : State) : (modChannel l k f s).loadFailed = s.loadFailed := rfl
@[simp] theorem modChannel_segments (l : Link) (k : ChanNo) (f : Channel → Channel) (s : State) : (modChannel l k f s).segments = s.segments := rfl
@[simp] theorem modChannel_posts (l : Link) (k : ChanNo) (f : Channel → Channel) (s : State) : (modChannel l k f s).posts = s.posts := rfl
@[simp] theorem modChannel_calls (l : Link) (k : ChanNo) (f : Channel → Channel) (s : State) : (modChannel l k f s).calls = s.calls := rfl
@[simp] theorem modChannel_created (l : Link) (k : ChanNo) (f : Channel → Channel) (s : State) : (modChannel l k f s).created = s.created := rfl
@[simp] theorem modChannel_nextSequence (l : Link) (k : ChanNo) (f : Channel → Channel) (s : State) : (modChannel l k f s).nextSequence = s.nextSequence := rfl
@[simp] theorem modChannel_queueLoad (l : Link) (k : ChanNo) (f : Channel → Channel) (s : State) : (modChannel l k f s).queueLoad = s.queueLoad := rfl
@[simp] theorem modChannel_pendingList (l : Link) (k : ChanNo) (f : Channel → Channel) (s : State) : (modChannel l k f s).pendingList = s.pendingList := rfl
@[simp] theorem modChannel_abandonedList (l : Link) (k : ChanNo) (f : Channel → Channel) (s : State) : (modChannel l k f s).abandonedList = s.abandonedList := rfl
@[simp] theorem modChannel_requests (l : Link) (k : ChanNo) (f : Channel → Channel) (s : State) : (modChannel l k f s).requests = s.requests := rfl
@[simp] theorem modChannel_onBattery (l : Link) (k : ChanNo) (f : Channel → Channel) (s : State) : (modChannel l k f s).onBattery = s.onBattery := rfl
@[simp] theorem modChannel_framed (l : Link) (k : ChanNo) (f : Channel → Channel) (s : State) : (modChannel l k f s).framed = s.framed := rfl
@[simp] theorem modChannel_pending (l : Link) (k : ChanNo) (f : Channel → Channel) (s : State) : (modChannel l k f s).pending = s.pending := rfl

@[simp] theorem enqueue_supply (l : Link) (b : Block) (s : State) : (enqueue l b s).supply = s.supply := rfl
@[simp] theorem enqueue_timebase (l : Link) (b : Block) (s : State) : (enqueue l b s).timebase = s.timebase := rfl
@[simp] theorem enqueue_clock (l : Link) (b : Block) (s : State) : (enqueue l b s).clock = s.clock := rfl
@[simp] theorem enqueue_manager (l : Link) (b : Block) (s : State) : (enqueue l b s).manager = s.manager := rfl
@[simp] theorem enqueue_tables (l : Link) (b : Block) (s : State) : (enqueue l b s).tables = s.tables := rfl
@[simp] theorem enqueue_memory (l : Link) (b : Block) (s : State) : (enqueue l b s).memory = s.memory := rfl
@[simp] theorem enqueue_loadFailed (l : Link) (b : Block) (s : State) : (enqueue l b s).loadFailed = s.loadFailed := rfl
@[simp] theorem enqueue_segments (l : Link) (b : Block) (s : State) : (enqueue l b s).segments = s.segments := rfl
@[simp] theorem enqueue_posts (l : Link) (b : Block) (s : State) : (enqueue l b s).posts = s.posts := rfl
@[simp] theorem enqueue_calls (l : Link) (b : Block) (s : State) : (enqueue l b s).calls = s.calls := rfl
@[simp] theorem enqueue_created (l : Link) (b : Block) (s : State) : (enqueue l b s).created = s.created := rfl
@[simp] theorem enqueue_nextSequence (l : Link) (b : Block) (s : State) : (enqueue l b s).nextSequence = s.nextSequence := rfl
@[simp] theorem enqueue_queueLoad (l : Link) (b : Block) (s : State) : (enqueue l b s).queueLoad = s.queueLoad := rfl
@[simp] theorem enqueue_pendingList (l : Link) (b : Block) (s : State) : (enqueue l b s).pendingList = s.pendingList := rfl
@[simp] theorem enqueue_abandonedList (l : Link) (b : Block) (s : State) : (enqueue l b s).abandonedList = s.abandonedList := rfl
@[simp] theorem enqueue_requests (l : Link) (b : Block) (s : State) : (enqueue l b s).requests = s.requests := rfl
@[simp] theorem enqueue_onBattery (l : Link) (b : Block) (s : State) : (enqueue l b s).onBattery = s.onBattery := rfl
@[simp] theorem enqueue_framed (l : Link) (b : Block) (s : State) : (enqueue l b s).framed = s.framed := rfl
@[simp] theorem enqueue_pending (l : Link) (b : Block) (s : State) : (enqueue l b s).pending = s.pending := rfl

@[simp] theorem respond_supply (l : Link) (t : Tag) (k : CommandType) (r : Result) (s : State) : (respond l t k r s).supply = s.supply := rfl
@[simp] theorem respond_timebase (l : Link) (t : Tag) (k : CommandType) (r : Result) (s : State) : (respond l t k r s).timebase = s.timebase := rfl
@[simp] theorem respond_clock (l : Link) (t : Tag) (k : CommandType) (r : Result) (s : State) : (respond l t k r s).clock = s.clock := rfl
@[simp] theorem respond_manager (l : Link) (t : Tag) (k : CommandType) (r : Result) (s : State) : (respond l t k r s).manager = s.manager := rfl
@[simp] theorem respond_tables (l : Link) (t : Tag) (k : CommandType) (r : Result) (s : State) : (respond l t k r s).tables = s.tables := rfl
@[simp] theorem respond_memory (l : Link) (t : Tag) (k : CommandType) (r : Result) (s : State) : (respond l t k r s).memory = s.memory := rfl
@[simp] theorem respond_loadFailed (l : Link) (t : Tag) (k : CommandType) (r : Result) (s : State) : (respond l t k r s).loadFailed = s.loadFailed := rfl
@[simp] theorem respond_segments (l : Link) (t : Tag) (k : CommandType) (r : Result) (s : State) : (respond l t k r s).segments = s.segments := rfl
@[simp] theorem respond_posts (l : Link) (t : Tag) (k : CommandType) (r : Result) (s : State) : (respond l t k r s).posts = s.posts := rfl
@[simp] theorem respond_calls (l : Link) (t : Tag) (k : CommandType) (r : Result) (s : State) : (respond l t k r s).calls = s.calls := rfl
@[simp] theorem respond_created (l : Link) (t : Tag) (k : CommandType) (r : Result) (s : State) : (respond l t k r s).created = s.created := rfl
@[simp] theorem respond_nextSequence (l : Link) (t : Tag) (k : CommandType) (r : Result) (s : State) : (respond l t k r s).nextSequence = s.nextSequence := rfl
@[simp] theorem respond_queueLoad (l : Link) (t : Tag) (k : CommandType) (r : Result) (s : State) : (respond l t k r s).queueLoad = s.queueLoad := rfl
@[simp] theorem respond_pendingList (l : Link) (t : Tag) (k : CommandType) (r : Result) (s : State) : (respond l t k r s).pendingList = s.pendingList := rfl
@[simp] theorem respond_abandonedList (l : Link) (t : Tag) (k : CommandType) (r : Result) (s : State) : (respond l t k r s).abandonedList = s.abandonedList := rfl
@[simp] theorem respond_requests (l : Link) (t : Tag) (k : CommandType) (r : Result) (s : State) : (respond l t k r s).requests = s.requests := rfl
@[simp] theorem respond_onBattery (l : Link) (t : Tag) (k : CommandType) (r : Result) (s : State) : (respond l t k r s).onBattery = s.onBattery := rfl
@[simp] theorem respond_framed (l : Link) (t : Tag) (k : CommandType) (r : Result) (s : State) : (respond l t k r s).framed = s.framed := rfl
@[simp] theorem respond_pending (l : Link) (t : Tag) (k : CommandType) (r : Result) (s : State) : (respond l t k r s).pending = s.pending := rfl

@[simp] theorem reach_supply (k : Nat) (s : State) : (reach k s).supply = s.supply := rfl
@[simp] theorem reach_clock (k : Nat) (s : State) : (reach k s).clock = s.clock := rfl
@[simp] theorem reach_manager (k : Nat) (s : State) : (reach k s).manager = s.manager := rfl
@[simp] theorem reach_tables (k : Nat) (s : State) : (reach k s).tables = s.tables := rfl
@[simp] theorem reach_memory (k : Nat) (s : State) : (reach k s).memory = s.memory := rfl
@[simp] theorem reach_loadFailed (k : Nat) (s : State) : (reach k s).loadFailed = s.loadFailed := rfl
@[simp] theorem reach_links (k : Nat) (s : State) : (reach k s).links = s.links := rfl
@[simp] theorem reach_segments (k : Nat) (s : State) : (reach k s).segments = s.segments := rfl
@[simp] theorem reach_posts (k : Nat) (s : State) : (reach k s).posts = s.posts := rfl
@[simp] theorem reach_calls (k : Nat) (s : State) : (reach k s).calls = s.calls := rfl
@[simp] theorem reach_created (k : Nat) (s : State) : (reach k s).created = s.created := rfl
@[simp] theorem reach_nextSequence (k : Nat) (s : State) : (reach k s).nextSequence = s.nextSequence := rfl
@[simp] theorem reach_queueLoad (k : Nat) (s : State) : (reach k s).queueLoad = s.queueLoad := rfl
@[simp] theorem reach_pendingList (k : Nat) (s : State) : (reach k s).pendingList = s.pendingList := rfl
@[simp] theorem reach_abandonedList (k : Nat) (s : State) : (reach k s).abandonedList = s.abandonedList := rfl
@[simp] theorem reach_requests (k : Nat) (s : State) : (reach k s).requests = s.requests := rfl
@[simp] theorem reach_onBattery (k : Nat) (s : State) : (reach k s).onBattery = s.onBattery := rfl
@[simp] theorem reach_framed (k : Nat) (s : State) : (reach k s).framed = s.framed := rfl
@[simp] theorem reach_pending (k : Nat) (s : State) : (reach k s).pending = s.pending := rfl

/-! ### Reading back -/

@[simp] theorem get_set_self {α : Type} (p : PerLink α) (l : Link) (x : α) : (p.set l x).get l = x := by cases l <;> rfl

@[simp] theorem get_set_other {α : Type} (p : PerLink α) {l m : Link} (h : m ≠ l) (x : α) :
    (p.set l x).get m = p.get m := by
  cases l <;> cases m <;> first | rfl | exact absurd rfl h

@[simp] theorem link_modLink_self (l : Link) (f : LinkRec → LinkRec) (s : State) :
    (modLink l f s).link l = f (s.link l) := get_set_self _ _ _

theorem link_modLink_other {l m : Link} (h : m ≠ l) (f : LinkRec → LinkRec) (s : State) :
    (modLink l f s).link m = s.link m := get_set_other _ h _

theorem link_modLink (l m : Link) (f : LinkRec → LinkRec) (s : State) :
    (modLink l f s).link m = if m = l then f (s.link m) else s.link m := by
  split
  · rename_i h; subst h; exact link_modLink_self _ _ _
  · rename_i h; exact link_modLink_other h _ _

@[simp] theorem other_ne (l : Link) : l.other ≠ l := by cases l <;> decide

@[simp] theorem ne_other (l : Link) : l ≠ l.other := by cases l <;> decide

@[simp] theorem other_other (l : Link) : l.other.other = l := by cases l <;> rfl

@[simp] theorem segment_modSegment_self (g : SegId) (f : Segment → Segment) (s : State) :
    (modSegment g f s).segment g = f (s.segment g) := by simp [modSegment, State.segment]

theorem segment_modSegment_other {g h : SegId} (d : h ≠ g) (f : Segment → Segment) (s : State) :
    (modSegment g f s).segment h = s.segment h := by
  have : (g : Nat) ≠ h := fun e => d (Fin.ext e.symm)
  simp [modSegment, State.segment, Vector.getElem_set_ne, this]

theorem segment_modSegment (g h : SegId) (f : Segment → Segment) (s : State) :
    (modSegment g f s).segment h = if h = g then f (s.segment h) else s.segment h := by
  split
  · rename_i e; subst e; exact segment_modSegment_self _ _ _
  · rename_i e; exact segment_modSegment_other e _ _

theorem line_modLine (g h : SegId) (f : LineUnit → LineUnit) (s : State) :
    (modLine g f s).line h = if h = g then f (s.line h) else s.line h := by
  simp only [modLine, State.line, segment_modSegment]; split <;> rfl

@[simp] theorem line_modLine_self (g : SegId) (f : LineUnit → LineUnit) (s : State) :
    (modLine g f s).line g = f (s.line g) := by simp [line_modLine]

@[simp] theorem poll_modLine (g h : SegId) (f : LineUnit → LineUnit) (s : State) :
    (modLine g f s).poll h = s.poll h := by
  simp only [modLine, State.poll, segment_modSegment]; split <;> rfl

@[simp] theorem path_modLine (g h : SegId) (f : LineUnit → LineUnit) (s : State) :
    (modLine g f s).path h = s.path h := by
  simp only [modLine, State.path, segment_modSegment]; split <;> rfl

theorem poll_modPoll (g h : SegId) (f : Poll → Poll) (s : State) :
    (modPoll g f s).poll h = if h = g then f (s.poll h) else s.poll h := by
  simp only [modPoll, State.poll, segment_modSegment]; split <;> rfl

@[simp] theorem poll_modPoll_self (g : SegId) (f : Poll → Poll) (s : State) :
    (modPoll g f s).poll g = f (s.poll g) := by simp [poll_modPoll]

@[simp] theorem line_modPoll (g h : SegId) (f : Poll → Poll) (s : State) :
    (modPoll g f s).line h = s.line h := by
  simp only [modPoll, State.line, segment_modSegment]; split <;> rfl

@[simp] theorem path_modPoll (g h : SegId) (f : Poll → Poll) (s : State) :
    (modPoll g f s).path h = s.path h := by
  simp only [modPoll, State.path, segment_modSegment]; split <;> rfl

theorem path_modPath (g h : SegId) (f : Path → Path) (s : State) :
    (modPath g f s).path h = if h = g then f (s.path h) else s.path h := by
  simp only [modPath, State.path, segment_modSegment]; split <;> rfl

@[simp] theorem path_modPath_self (g : SegId) (f : Path → Path) (s : State) :
    (modPath g f s).path g = f (s.path g) := by simp [path_modPath]

@[simp] theorem line_modPath (g h : SegId) (f : Path → Path) (s : State) :
    (modPath g f s).line h = s.line h := by
  simp only [modPath, State.line, segment_modSegment]; split <;> rfl

@[simp] theorem poll_modPath (g h : SegId) (f : Path → Path) (s : State) :
    (modPath g f s).poll h = s.poll h := by
  simp only [modPath, State.poll, segment_modSegment]; split <;> rfl

@[simp] theorem post_modPost_self (p : PostId) (f : Post → Post) (s : State) :
    (modPost p f s).post p = f (s.post p) := by simp [modPost, State.post]

theorem post_modPost_other {p q : PostId} (h : q ≠ p) (f : Post → Post) (s : State) :
    (modPost p f s).post q = s.post q := by
  simp only [modPost, State.post]
  by_cases hs : q.seg = p.seg
  · have ha : (p.addr : Nat) ≠ q.addr := fun e => h (by
      cases p; cases q; simp only at hs e; subst hs; congr 1; exact (Fin.ext e).symm)
    simp [hs, Vector.getElem_set_ne, ha]
  · have hs' : (p.seg : Nat) ≠ q.seg := fun e => hs (Fin.ext e.symm)
    simp [Vector.getElem_set_ne, hs']

theorem post_modPost (p q : PostId) (f : Post → Post) (s : State) :
    (modPost p f s).post q = if q = p then f (s.post q) else s.post q := by
  split
  · rename_i h; subst h; exact post_modPost_self _ _ _
  · rename_i h; exact post_modPost_other h _ _

@[simp] theorem call_putCall_self (n : CallNo) (c : Option Call) (s : State) : (putCall n c s).call n = c := by
  simp [putCall, State.call]

theorem call_putCall (n m : CallNo) (c : Option Call) (s : State) :
    (putCall n c s).call m = if m = n then c else s.call m := by
  split
  · rename_i h; subst h; exact call_putCall_self _ _ _
  · rename_i h
    have : (n : Nat) ≠ m := fun e => h (Fin.ext e.symm)
    simp [putCall, State.call, Vector.getElem_set_ne, this]

theorem call_modCall (n m : CallNo) (f : Call → Call) (s : State) :
    (modCall n f s).call m = if m = n then (s.call m).map f else s.call m := by
  rw [modCall, call_putCall]; split
  · rename_i h; rw [h]
  · rfl

@[simp] theorem call_modCall_self (n : CallNo) (f : Call → Call) (s : State) :
    (modCall n f s).call n = (s.call n).map f := by simp [call_modCall]

@[simp] theorem segment_modLink (l₀ : Link) (f : LinkRec → LinkRec) (h : SegId) (s : State) : (modLink l₀ f s).segment h = s.segment h := rfl
@[simp] theorem line_modLink (l₀ : Link) (f : LinkRec → LinkRec) (h : SegId) (s : State) : (modLink l₀ f s).line h = s.line h := rfl
@[simp] theorem poll_modLink (l₀ : Link) (f : LinkRec → LinkRec) (h : SegId) (s : State) : (modLink l₀ f s).poll h = s.poll h := rfl
@[simp] theorem path_modLink (l₀ : Link) (f : LinkRec → LinkRec) (h : SegId) (s : State) : (modLink l₀ f s).path h = s.path h := rfl
@[simp] theorem post_modLink (l₀ : Link) (f : LinkRec → LinkRec) (q : PostId) (s : State) : (modLink l₀ f s).post q = s.post q := rfl
@[simp] theorem call_modLink (l₀ : Link) (f : LinkRec → LinkRec) (m : CallNo) (s : State) : (modLink l₀ f s).call m = s.call m := rfl
@[simp] theorem postConfig_modLink (l₀ : Link) (f : LinkRec → LinkRec) (q : PostId) (s : State) : (modLink l₀ f s).postConfig q = s.postConfig q := rfl
@[simp] theorem segmentConfig_modLink (l₀ : Link) (f : LinkRec → LinkRec) (h : SegId) (s : State) : (modLink l₀ f s).segmentConfig h = s.segmentConfig h := rfl
@[simp] theorem link_modSegment (g : SegId) (f : Segment → Segment) (l : Link) (s : State) : (modSegment g f s).link l = s.link l := rfl
@[simp] theorem post_modSegment (g : SegId) (f : Segment → Segment) (q : PostId) (s : State) : (modSegment g f s).post q = s.post q := rfl
@[simp] theorem call_modSegment (g : SegId) (f : Segment → Segment) (m : CallNo) (s : State) : (modSegment g f s).call m = s.call m := rfl
@[simp] theorem postConfig_modSegment (g : SegId) (f : Segment → Segment) (q : PostId) (s : State) : (modSegment g f s).postConfig q = s.postConfig q := rfl
@[simp] theorem segmentConfig_modSegment (g : SegId) (f : Segment → Segment) (h : SegId) (s : State) : (modSegment g f s).segmentConfig h = s.segmentConfig h := rfl
@[simp] theorem link_modLine (g : SegId) (f : LineUnit → LineUnit) (l : Link) (s : State) : (modLine g f s).link l = s.link l := rfl
@[simp] theorem post_modLine (g : SegId) (f : LineUnit → LineUnit) (q : PostId) (s : State) : (modLine g f s).post q = s.post q := rfl
@[simp] theorem call_modLine (g : SegId) (f : LineUnit → LineUnit) (m : CallNo) (s : State) : (modLine g f s).call m = s.call m := rfl
@[simp] theorem postConfig_modLine (g : SegId) (f : LineUnit → LineUnit) (q : PostId) (s : State) : (modLine g f s).postConfig q = s.postConfig q := rfl
@[simp] theorem segmentConfig_modLine (g : SegId) (f : LineUnit → LineUnit) (h : SegId) (s : State) : (modLine g f s).segmentConfig h = s.segmentConfig h := rfl
@[simp] theorem link_modPoll (g : SegId) (f : Poll → Poll) (l : Link) (s : State) : (modPoll g f s).link l = s.link l := rfl
@[simp] theorem post_modPoll (g : SegId) (f : Poll → Poll) (q : PostId) (s : State) : (modPoll g f s).post q = s.post q := rfl
@[simp] theorem call_modPoll (g : SegId) (f : Poll → Poll) (m : CallNo) (s : State) : (modPoll g f s).call m = s.call m := rfl
@[simp] theorem postConfig_modPoll (g : SegId) (f : Poll → Poll) (q : PostId) (s : State) : (modPoll g f s).postConfig q = s.postConfig q := rfl
@[simp] theorem segmentConfig_modPoll (g : SegId) (f : Poll → Poll) (h : SegId) (s : State) : (modPoll g f s).segmentConfig h = s.segmentConfig h := rfl
@[simp] theorem link_modPath (g : SegId) (f : Path → Path) (l : Link) (s : State) : (modPath g f s).link l = s.link l := rfl
@[simp] theorem post_modPath (g : SegId) (f : Path → Path) (q : PostId) (s : State) : (modPath g f s).post q = s.post q := rfl
@[simp] theorem call_modPath (g : SegId) (f : Path → Path) (m : CallNo) (s : State) : (modPath g f s).call m = s.call m := rfl
@[simp] theorem postConfig_modPath (g : SegId) (f : Path → Path) (q : PostId) (s : State) : (modPath g f s).postConfig q = s.postConfig q := rfl
@[simp] theorem segmentConfig_modPath (g : SegId) (f : Path → Path) (h : SegId) (s : State) : (modPath g f s).segmentConfig h = s.segmentConfig h := rfl
@[simp] theorem link_modPost (p : PostId) (f : Post → Post) (l : Link) (s : State) : (modPost p f s).link l = s.link l := rfl
@[simp] theorem segment_modPost (p : PostId) (f : Post → Post) (h : SegId) (s : State) : (modPost p f s).segment h = s.segment h := rfl
@[simp] theorem line_modPost (p : PostId) (f : Post → Post) (h : SegId) (s : State) : (modPost p f s).line h = s.line h := rfl
@[simp] theorem poll_modPost (p : PostId) (f : Post → Post) (h : SegId) (s : State) : (modPost p f s).poll h = s.poll h := rfl
@[simp] theorem path_modPost (p : PostId) (f : Post → Post) (h : SegId) (s : State) : (modPost p f s).path h = s.path h := rfl
@[simp] theorem call_modPost (p : PostId) (f : Post → Post) (m : CallNo) (s : State) : (modPost p f s).call m = s.call m := rfl
@[simp] theorem postConfig_modPost (p : PostId) (f : Post → Post) (q : PostId) (s : State) : (modPost p f s).postConfig q = s.postConfig q := rfl
@[simp] theorem segmentConfig_modPost (p : PostId) (f : Post → Post) (h : SegId) (s : State) : (modPost p f s).segmentConfig h = s.segmentConfig h := rfl
@[simp] theorem link_putCall (n : CallNo) (c : Option Call) (l : Link) (s : State) : (putCall n c s).link l = s.link l := rfl
@[simp] theorem segment_putCall (n : CallNo) (c : Option Call) (h : SegId) (s : State) : (putCall n c s).segment h = s.segment h := rfl
@[simp] theorem line_putCall (n : CallNo) (c : Option Call) (h : SegId) (s : State) : (putCall n c s).line h = s.line h := rfl
@[simp] theorem poll_putCall (n : CallNo) (c : Option Call) (h : SegId) (s : State) : (putCall n c s).poll h = s.poll h := rfl
@[simp] theorem path_putCall (n : CallNo) (c : Option Call) (h : SegId) (s : State) : (putCall n c s).path h = s.path h := rfl
@[simp] theorem post_putCall (n : CallNo) (c : Option Call) (q : PostId) (s : State) : (putCall n c s).post q = s.post q := rfl
@[simp] theorem postConfig_putCall (n : CallNo) (c : Option Call) (q : PostId) (s : State) : (putCall n c s).postConfig q = s.postConfig q := rfl
@[simp] theorem segmentConfig_putCall (n : CallNo) (c : Option Call) (h : SegId) (s : State) : (putCall n c s).segmentConfig h = s.segmentConfig h := rfl
@[simp] theorem link_modCall (n : CallNo) (f : Call → Call) (l : Link) (s : State) : (modCall n f s).link l = s.link l := rfl
@[simp] theorem segment_modCall (n : CallNo) (f : Call → Call) (h : SegId) (s : State) : (modCall n f s).segment h = s.segment h := rfl
@[simp] theorem line_modCall (n : CallNo) (f : Call → Call) (h : SegId) (s : State) : (modCall n f s).line h = s.line h := rfl
@[simp] theorem poll_modCall (n : CallNo) (f : Call → Call) (h : SegId) (s : State) : (modCall n f s).poll h = s.poll h := rfl
@[simp] theorem path_modCall (n : CallNo) (f : Call → Call) (h : SegId) (s : State) : (modCall n f s).path h = s.path h := rfl
@[simp] theorem post_modCall (n : CallNo) (f : Call → Call) (q : PostId) (s : State) : (modCall n f s).post q = s.post q := rfl
@[simp] theorem postConfig_modCall (n : CallNo) (f : Call → Call) (q : PostId) (s : State) : (modCall n f s).postConfig q = s.postConfig q := rfl
@[simp] theorem segmentConfig_modCall (n : CallNo) (f : Call → Call) (h : SegId) (s : State) : (modCall n f s).segmentConfig h = s.segmentConfig h := rfl
@[simp] theorem segment_modChannel (l₀ : Link) (k : ChanNo) (f : Channel → Channel) (h : SegId) (s : State) : (modChannel l₀ k f s).segment h = s.segment h := rfl
@[simp] theorem line_modChannel (l₀ : Link) (k : ChanNo) (f : Channel → Channel) (h : SegId) (s : State) : (modChannel l₀ k f s).line h = s.line h := rfl
@[simp] theorem poll_modChannel (l₀ : Link) (k : ChanNo) (f : Channel → Channel) (h : SegId) (s : State) : (modChannel l₀ k f s).poll h = s.poll h := rfl
@[simp] theorem path_modChannel (l₀ : Link) (k : ChanNo) (f : Channel → Channel) (h : SegId) (s : State) : (modChannel l₀ k f s).path h = s.path h := rfl
@[simp] theorem post_modChannel (l₀ : Link) (k : ChanNo) (f : Channel → Channel) (q : PostId) (s : State) : (modChannel l₀ k f s).post q = s.post q := rfl
@[simp] theorem call_modChannel (l₀ : Link) (k : ChanNo) (f : Channel → Channel) (m : CallNo) (s : State) : (modChannel l₀ k f s).call m = s.call m := rfl
@[simp] theorem postConfig_modChannel (l₀ : Link) (k : ChanNo) (f : Channel → Channel) (q : PostId) (s : State) : (modChannel l₀ k f s).postConfig q = s.postConfig q := rfl
@[simp] theorem segmentConfig_modChannel (l₀ : Link) (k : ChanNo) (f : Channel → Channel) (h : SegId) (s : State) : (modChannel l₀ k f s).segmentConfig h = s.segmentConfig h := rfl
@[simp] theorem segment_enqueue (l₀ : Link) (b : Block) (h : SegId) (s : State) : (enqueue l₀ b s).segment h = s.segment h := rfl
@[simp] theorem line_enqueue (l₀ : Link) (b : Block) (h : SegId) (s : State) : (enqueue l₀ b s).line h = s.line h := rfl
@[simp] theorem poll_enqueue (l₀ : Link) (b : Block) (h : SegId) (s : State) : (enqueue l₀ b s).poll h = s.poll h := rfl
@[simp] theorem path_enqueue (l₀ : Link) (b : Block) (h : SegId) (s : State) : (enqueue l₀ b s).path h = s.path h := rfl
@[simp] theorem post_enqueue (l₀ : Link) (b : Block) (q : PostId) (s : State) : (enqueue l₀ b s).post q = s.post q := rfl
@[simp] theorem call_enqueue (l₀ : Link) (b : Block) (m : CallNo) (s : State) : (enqueue l₀ b s).call m = s.call m := rfl
@[simp] theorem postConfig_enqueue (l₀ : Link) (b : Block) (q : PostId) (s : State) : (enqueue l₀ b s).postConfig q = s.postConfig q := rfl
@[simp] theorem segmentConfig_enqueue (l₀ : Link) (b : Block) (h : SegId) (s : State) : (enqueue l₀ b s).segmentConfig h = s.segmentConfig h := rfl
@[simp] theorem segment_respond (l₀ : Link) (t : Tag) (k : CommandType) (r : Result) (h : SegId) (s : State) : (respond l₀ t k r s).segment h = s.segment h := rfl
@[simp] theorem line_respond (l₀ : Link) (t : Tag) (k : CommandType) (r : Result) (h : SegId) (s : State) : (respond l₀ t k r s).line h = s.line h := rfl
@[simp] theorem poll_respond (l₀ : Link) (t : Tag) (k : CommandType) (r : Result) (h : SegId) (s : State) : (respond l₀ t k r s).poll h = s.poll h := rfl
@[simp] theorem path_respond (l₀ : Link) (t : Tag) (k : CommandType) (r : Result) (h : SegId) (s : State) : (respond l₀ t k r s).path h = s.path h := rfl
@[simp] theorem post_respond (l₀ : Link) (t : Tag) (k : CommandType) (r : Result) (q : PostId) (s : State) : (respond l₀ t k r s).post q = s.post q := rfl
@[simp] theorem call_respond (l₀ : Link) (t : Tag) (k : CommandType) (r : Result) (m : CallNo) (s : State) : (respond l₀ t k r s).call m = s.call m := rfl
@[simp] theorem postConfig_respond (l₀ : Link) (t : Tag) (k : CommandType) (r : Result) (q : PostId) (s : State) : (respond l₀ t k r s).postConfig q = s.postConfig q := rfl
@[simp] theorem segmentConfig_respond (l₀ : Link) (t : Tag) (k : CommandType) (r : Result) (h : SegId) (s : State) : (respond l₀ t k r s).segmentConfig h = s.segmentConfig h := rfl
@[simp] theorem link_reach (k : Nat) (l : Link) (s : State) : (reach k s).link l = s.link l := rfl
@[simp] theorem segment_reach (k : Nat) (h : SegId) (s : State) : (reach k s).segment h = s.segment h := rfl
@[simp] theorem line_reach (k : Nat) (h : SegId) (s : State) : (reach k s).line h = s.line h := rfl
@[simp] theorem poll_reach (k : Nat) (h : SegId) (s : State) : (reach k s).poll h = s.poll h := rfl
@[simp] theorem path_reach (k : Nat) (h : SegId) (s : State) : (reach k s).path h = s.path h := rfl
@[simp] theorem post_reach (k : Nat) (q : PostId) (s : State) : (reach k s).post q = s.post q := rfl
@[simp] theorem call_reach (k : Nat) (m : CallNo) (s : State) : (reach k s).call m = s.call m := rfl
@[simp] theorem postConfig_reach (k : Nat) (q : PostId) (s : State) : (reach k s).postConfig q = s.postConfig q := rfl
@[simp] theorem segmentConfig_reach (k : Nat) (h : SegId) (s : State) : (reach k s).segmentConfig h = s.segmentConfig h := rfl

end Sys2Proof.Machine
end

