-- ==== Sys2Proof/Laws/Soft.lean ====
section
/-! SUPPORT. What the shared operations can do, said once. Each is made of a few kinds of update, and a property of
states that every such update keeps is kept by every operation: an invariant, or a frame ("this field is as it was in
`s₀`"). This file holds the first level: paths, orders, tones and notices. -/

namespace Sys2Proof.Machine

open Sys2Proof

/-- A call record after an update of paths, offers and line flags: all but its state's companions stands. -/
structure CallKept (c c' : Call) : Prop where
  sequence : c'.sequence = c.sequence
  kind : c'.kind = c.kind
  post : c'.post = c.post
  state : c'.state = c.state
  cls : c'.cls = c.cls
  weight : c'.weight = c.weight
  priority : c'.priority = c.priority
  home : c'.home = c.home
  owner : c'.owner = c.owner
  ownerChannel : c'.ownerChannel = c.ownerChannel
  joinedChannel : c'.joinedChannel = c.joinedChannel
  transferred : c'.transferred = c.transferred
  origin : c'.origin = c.origin
  location : c'.location = c.location
  ageing : c'.ageing = c.ageing

/-- A property kept by every update of the first level. -/
structure Soft (P : State → Prop) : Prop where
  link : ∀ l f s, (∀ r, LinkKept r (f r) ∧ (f r).mode = r.mode ∧ (f r).transfers = r.transfers) → P s → P (modLink l f s)
  path : ∀ g f s, (∀ q, (f q).speechIn = q.speechIn ∧ (f q).speechOut = q.speechOut) → P s → P (modPath g f s)
  poll : ∀ g f s, (∀ q, PollKept q (f q) ∧ (q.Distinct → (f q).Distinct)) → P s → P (modPoll g f s)
  post : ∀ p f s, (∀ r, PostKept r (f r) ∧ (f r).call = r.call ∧ (f r).pending = r.pending) → P s → P (modPost p f s)
  call : ∀ n f s, (∀ c, CallKept c (f c)) → P s → P (modCall n f s)
  requests : ∀ l s, P s → P { s with requests := l }

theorem forEach_keeps {α : Type} {P : State → Prop} {f : α → State → State} (hf : ∀ x s, P s → P (f x s)) (l : List α)
    {s : State} (h : P s) : P (forEach l f s) := by
  unfold forEach
  induction l generalizing s with
  | nil => exact h
  | cons x l ih => exact ih (hf x s h)

/-- A record put back changed is the record changed. -/
theorem putCall_eq_modCall {n : CallNo} {c : Call} {s : State} (h : s.call n = some c) (f : Call → Call) :
    putCall n (some (f c)) s = modCall n f s := by simp [modCall, h]

theorem holdAt_le (k n : Nat) : holdAt k n ≤ k := Nat.min_le_left _ _

theorem PollKept.refl (q : Poll) : PollKept q q := ⟨rfl, rfl, rfl, rfl, rfl, rfl, .inl rfl⟩

theorem PollKept.trans {p q r : Poll} (h : PollKept p q) (k : PollKept q r) : PollKept p r :=
  ⟨k.1.trans h.1, k.2.trans h.2, k.3.trans h.3, k.4.trans h.4, k.5.trans h.5,
   k.6.trans h.6, k.7.elim (fun e => h.7.elim (fun d => .inl (e.trans d)) (fun d => .inr (e.trans d))) .inr⟩

theorem Poll.toNormal_kept (q : Poll) : PollKept q q.toNormal := by
  unfold Poll.toNormal; split
  · exact ⟨rfl, rfl, rfl, rfl, rfl, rfl, .inr rfl⟩
  · exact PollKept.refl q

theorem Poll.toNormal_distinct {q : Poll} (h : q.Distinct) : q.toNormal.Distinct := by
  unfold Poll.toNormal; split <;> exact h

theorem Poll.overtake_kept (a : Addr) (o : Order) (q : Poll) : PollKept q (q.overtake a o) :=
  ⟨rfl, rfl, rfl, rfl, rfl, rfl, .inl rfl⟩

theorem Poll.enter_kept (a : Addr) (o : Order) (q : Poll) : PollKept q (q.enter a o) := by
  unfold Poll.enter; split
  · exact ⟨rfl, rfl, rfl, rfl, rfl, rfl, .inl rfl⟩
  · exact PollKept.trans (q := { q with queue := q.queue ++ [⟨a, o⟩] }) ⟨rfl, rfl, rfl, rfl, rfl, rfl, .inl rfl⟩
      (Poll.toNormal_kept _)

theorem Poll.enter_distinct (a : Addr) (o : Order) {q : Poll} (hd : q.Distinct) : (q.enter a o).Distinct := by
  unfold Poll.enter; split
  · unfold Poll.Distinct at *
    have : ((q.queue.map (fun e => if e.addr = a then (⟨a, o⟩ : QueueEntry) else e)).map (·.addr)) =
        q.queue.map (·.addr) := by
      rw [List.map_map]; apply List.map_congr_left; intro e _
      simp only [Function.comp]; split
      · rename_i e'; exact e'.symm
      · rfl
    show ((q.queue.map _).map _).Nodup
    rw [this]; exact hd
  · rename_i hn
    apply Poll.toNormal_distinct
    unfold Poll.Distinct at *
    simp only [List.map_append, List.map_cons, List.map_nil]
    rw [List.nodup_append]
    refine ⟨hd, by simp, ?_⟩
    intro x hx y hy hxy
    simp only [List.mem_singleton] at hy
    subst hy; subst hxy
    obtain ⟨e, he, hea⟩ := List.mem_map.mp hx
    apply hn
    rw [List.any_eq_true]
    exact ⟨e, he, by simp [hea]⟩

theorem Post.stopBy_kept (o : Order) (r : Post) :
    PostKept r (r.stopBy o) ∧ (r.stopBy o).call = r.call ∧ (r.stopBy o).pending = r.pending :=
  ⟨⟨rfl, rfl, rfl, rfl, rfl, rfl, rfl, rfl, rfl, rfl, rfl⟩, rfl, rfl⟩

namespace Soft

variable {P : State → Prop} (h : Soft P) {s : State}
include h

/-! ### Links and notices -/

theorem linkSame (l : Link) (f : LinkRec → LinkRec) (hf : ∀ r, (f r).queue = r.queue ∧ (f r).up = r.up ∧
      (f r).lossTimer = r.lossTimer ∧ (f r).startedSent = r.startedSent ∧ (f r).assembly = r.assembly ∧
      (f r).sentBytes = r.sentBytes ∧ (f r).channels = r.channels ∧ (f r).transmitted = r.transmitted ∧
      (f r).transmittedByte = r.transmittedByte ∧ (f r).frames = r.frames ∧ (f r).mode = r.mode ∧
      (f r).transfers = r.transfers) (hp : P s) : P (modLink l f s) :=
  h.link l f s (fun r => by
    obtain ⟨h1, h2, h3, h4, h5, h6, h7, h8, h9, h10, h11, h12⟩ := hf r
    exact ⟨⟨h2, h3, h4, h5, h6, h8, h9, h10, h1 ▸ List.prefix_rfl, fun k => .inl (by rw [h7])⟩, h11, h12⟩) hp

theorem enqueue (l : Link) (b : Block) (hp : P s) : P (enqueue l b s) :=
  h.link l _ s (fun _ => ⟨⟨rfl, rfl, rfl, rfl, rfl, rfl, rfl, rfl, List.prefix_append _ _, fun _ => .inl rfl⟩, rfl, rfl⟩) hp

theorem respond (l : Link) (t : Tag) (k : CommandType) (r : Result) (hp : P s) : P (respond l t k r s) :=
  h.enqueue l _ hp

theorem send (l : Link) (n : Notice) (hp : P s) : P (send l n s) := by
  unfold Machine.send
  split
  · split
    · exact h.enqueue l _ hp
    · exact h.linkSame l _ (fun _ => ⟨rfl, rfl, rfl, rfl, rfl, rfl, rfl, rfl, rfl, rfl, rfl, rfl⟩) hp
  · exact hp

theorem sendBoth (n : Notice) (hp : P s) : P (sendBoth n s) := h.send .b n (h.send .a n hp)

theorem sendLinkState (hp : P s) : P (sendLinkState s) := h.sendBoth _ hp

theorem sendStartedIfDue (l : Link) (hp : P s) : P (sendStartedIfDue l s) := by
  unfold Machine.sendStartedIfDue; split
  · exact h.enqueue l _ hp
  · exact hp

theorem modChannel (l : Link) (k : ChanNo) (f : Channel → Channel)
    (hf : ∀ ch, (f ch).heard = ch.heard ∨ (f ch).heard = silence) (hp : P s) : P (modChannel l k f s) :=
  h.link l _ s (fun r => ⟨⟨rfl, rfl, rfl, rfl, rfl, rfl, rfl, rfl, List.prefix_rfl, fun j => by
    by_cases e : (k : Nat) = j
    · have e' : k = j := Fin.ext e
      subst e'; simpa using hf _
    · exact .inl (by simp [Vector.getElem_set_ne, e])⟩, rfl, rfl⟩) hp

/-! ### Orders -/

theorem toNormal (g : SegId) (hp : P s) : P (modPoll g Poll.toNormal s) :=
  h.poll g _ s (fun q => ⟨q.toNormal_kept, Poll.toNormal_distinct⟩) hp

theorem tellCall (g : SegId) (hp : P s) : P (tellCall g s) := h.toNormal g hp

theorem requestOrder (p : PostId) (o : Order) (hp : P s) : P (requestOrder p o s) := by
  unfold Machine.requestOrder; dsimp only
  have h1 : P (modPost p (Post.stopBy o) s) := h.post p _ s (Post.stopBy_kept o) hp
  split
  · exact h.poll _ _ _ (fun q => ⟨(Poll.overtake_kept _ _ q).trans (Poll.enter_kept _ _ _),
      fun hd => Poll.enter_distinct _ _ hd⟩) h1
  · exact h1

/-! ### Calls as paths and offers see them -/

theorem callSame (n : CallNo) (f : Call → Call) (hf : ∀ c, f c = { c with
      phase := (f c).phase, overflowAt := (f c).overflowAt, offered := (f c).offered, pathHeld := (f c).pathHeld,
      lineDown := (f c).lineDown, ringDeadline := (f c).ringDeadline, declineMark := (f c).declineMark,
      cadence := (f c).cadence }) (hp : P s) : P (modCall n f s) :=
  h.call n f s (fun c => by rw [hf c]; exact ⟨rfl, rfl, rfl, rfl, rfl, rfl, rfl, rfl, rfl, rfl, rfl, rfl, rfl, rfl, rfl⟩) hp

theorem setOffer (n : CallNo) (l : Link) (b : Bool) (hp : P s) : P (setOffer n l b s) := by
  unfold Machine.setOffer
  split
  · exact hp
  · rename_i c hc
    split
    · exact hp
    · refine h.linkSame l _ (fun _ => ⟨rfl, rfl, rfl, rfl, rfl, rfl, rfl, rfl, rfl, rfl, rfl, rfl⟩) ?_
      rw [putCall_eq_modCall hc (fun c => { c with offered := c.offered.set l b })]
      exact h.callSame n _ (fun _ => rfl) hp

theorem removeOffers (n : CallNo) (hp : P s) : P (removeOffers n s) := h.setOffer n .b false (h.setOffer n .a false hp)

theorem openCall (n : CallNo) (hp : P s) : P (openCall n s) := h.callSame n _ (fun _ => rfl) hp

theorem openHomedOn (l : Link) (hp : P s) : P (openHomedOn l s) := by
  unfold Machine.openHomedOn
  apply forEach_keeps _ _ hp
  intro n s hp; split
  · exact hp
  · split
    · exact h.openCall n hp
    · exact hp

/-! ### Paths -/

theorem placeChannels (n : CallNo) (hp : P s) : P (placeChannels n s) := by
  unfold Machine.placeChannels; split
  · exact hp
  · exact forEach_keeps (fun _ _ hp => h.modChannel _ _ _ (fun ch => by
      unfold Channel.ofCall; dsimp only; split <;> simp) hp) _ hp

theorem freeChannel (l : Link) (k : ChanNo) (hp : P s) : P (freeChannel l k s) :=
  h.modChannel l k _ (fun _ => .inr rfl) hp

theorem freeChannels (c : Call) (hp : P s) : P (freeChannels c s) :=
  forEach_keeps (fun _ _ hp => h.freeChannel _ _ hp) _ hp

theorem grantCall (g : SegId) (n : CallNo) (c : Call) (hp : P s) : P (grantCall g n c s) :=
  h.requestOrder _ _ (h.callSame n _ (fun _ => rfl) (h.path g _ _ (fun _ => ⟨rfl, rfl⟩) (h.requests _ s hp)))

theorem grantTest (g : SegId) (t : TestRecord) (hp : P s) : P (grantTest g t s) :=
  h.requestOrder _ _ (h.path g _ _ (fun _ => ⟨rfl, rfl⟩) (h.requests _ s hp))

theorem evaluateGrant (g : SegId) (hp : P s) : P (evaluateGrant g s) := by
  unfold Machine.evaluateGrant; split
  · split
    · exact h.grantCall g _ _ hp
    · split
      · split
        · exact h.grantTest g _ hp
        · exact hp
      · exact hp
  · exact hp

theorem abandonTest (g : SegId) (cause : AbandonCause) (hp : P s) : P (abandonTest g cause s) := by
  unfold Machine.abandonTest; split
  · exact hp
  · dsimp only
    refine h.sendBoth _ (h.path g _ _ (fun _ => ⟨rfl, rfl⟩) ?_)
    split
    · exact h.requestOrder _ _ (h.requests _ s hp)
    · exact h.requests _ s hp

theorem abandonTestAndGrant (g : SegId) (cause : AbandonCause) (hp : P s) : P (abandonTestAndGrant g cause s) := by
  unfold Machine.abandonTestAndGrant; split
  · exact h.evaluateGrant g (h.abandonTest g cause hp)
  · exact hp

theorem makeRequest (n : CallNo) (hp : P s) : P (makeRequest n s) := by
  unfold Machine.makeRequest; split
  · exact hp
  · dsimp only
    have h1 := fun (l : List PathRequest) (g : SegId) =>
      h.evaluateGrant g (h.abandonTest g .preempted (h.requests l s hp))
    split
    · exact h1 _ _
    · split
      · exact h.send _ _ (h1 _ _)
      · exact h1 _ _
      · exact h1 _ _

theorem withdrawRequest (n : CallNo) (hp : P s) : P (withdrawRequest n s) := h.requests _ s hp

theorem releasePath (n : CallNo) (hp : P s) : P (releasePath n s) := by
  unfold Machine.releasePath; split
  · exact hp
  · split
    · dsimp only
      refine h.evaluateGrant _ ?_
      have h1 := fun (g : SegId) => h.callSame n (fun c => { c with pathHeld := false }) (fun _ => rfl)
        (h.path g (fun q => { q with holder := .none, grant := none, holdTone := none }) s (fun _ => ⟨rfl, rfl⟩) hp)
      split
      · exact h.requestOrder _ _ (h1 _)
      · exact h1 _
    · exact hp

theorem giveUpPath (n : CallNo) (hp : P s) : P (giveUpPath n s) := h.releasePath n (h.withdrawRequest n hp)

theorem echoAnswered (p : PostId) (o : Bool) (hp : P s) : P (echoAnswered p o s) := by
  unfold Machine.echoAnswered; split
  · exact hp
  · split
    · exact h.path _ _ _ (fun _ => ⟨rfl, rfl⟩)
        (h.post p _ s (fun _ => ⟨⟨rfl, rfl, rfl, rfl, rfl, rfl, rfl, rfl, rfl, rfl, rfl⟩, rfl, rfl⟩) hp)
    · exact hp

/-! ### A test abandoned by an off-hook or by line loss -/

theorem offHookTest (p : PostId) (hp : P s) : P (offHookTest p s) := by
  unfold Machine.offHookTest; split
  · split
    · exact h.abandonTestAndGrant _ _ hp
    · exact hp
  · exact hp

theorem pathLineLoss (p : PostId) (hp : P s) : P (pathLineLoss p s) := by
  unfold Machine.pathLineLoss; dsimp only
  have h1 := h.requests (s.requests.filter (fun r => r.post ≠ p)) s hp
  split
  · split
    · exact h.abandonTestAndGrant _ _ h1
    · exact h1
  · exact h1

/-! ### Notices of the Location Unit and the Event Classifier -/

theorem sendMismatch (p : PostId) (v : Verification) (hp : P s) : P (sendMismatch p v s) := by
  unfold Machine.sendMismatch; dsimp only; split
  · exact h.sendBoth _ hp
  · exact hp

end Soft

/-! ### First-level frames -/

/-- What the first level leaves of call record `n`, in use as `c₀`. -/
def KeptAt (n : CallNo) (c₀ : Call) (s : State) : Prop := ∃ c, s.call n = some c ∧ CallKept c₀ c

theorem CallKept.refl (c : Call) : CallKept c c := ⟨rfl, rfl, rfl, rfl, rfl, rfl, rfl, rfl, rfl, rfl, rfl, rfl, rfl, rfl, rfl⟩

theorem CallKept.trans {a b c : Call} (h : CallKept a b) (k : CallKept b c) : CallKept a c :=
  ⟨k.1.trans h.1, k.2.trans h.2, k.3.trans h.3, k.4.trans h.4, k.5.trans h.5, k.6.trans h.6, k.7.trans h.7,
   k.8.trans h.8, k.9.trans h.9, k.10.trans h.10, k.11.trans h.11, k.12.trans h.12, k.13.trans h.13, k.14.trans h.14,
   k.15.trans h.15⟩

theorem soft_keptAt (n : CallNo) (c₀ : Call) : Soft (KeptAt n c₀) where
  link _ _ _ _ hp := hp
  path _ _ _ _ hp := hp
  poll _ _ _ _ hp := hp
  post _ _ _ _ hp := hp
  call m f s hf := by
    rintro ⟨c, hc, hk⟩
    by_cases e : n = m
    · subst e
      exact ⟨f c, by simp [hc], hk.trans (hf c)⟩
    · exact ⟨c, by rw [call_modCall, if_neg e]; exact hc, hk⟩
  requests _ _ hp := hp

/-- The creation order and the free records stand through the first level. -/
theorem soft_created (l : List CallNo) : Soft (fun s => s.created = l) where
  link _ _ _ _ hp := hp
  path _ _ _ _ hp := hp
  poll _ _ _ _ hp := hp
  post _ _ _ _ hp := hp
  call _ _ _ _ hp := hp
  requests _ _ hp := hp

end Sys2Proof.Machine
end

