-- ==== Sys2Proof/Laws/Calm.lean ====
section
/-! SUPPORT. The second level of what the shared operations can do: offers, the state of a call, the creation and the
freeing of records, the pending and abandoned lists, the queue-load flag and the end of a drain. -/

namespace Sys2Proof.Machine

open Sys2Proof

/-- A record as creation gives it: the counter's sequence, a priority in range, an owner exactly in an owned state. -/
structure NewCall (s : State) (c : Call) : Prop where
  sequence : c.sequence = s.nextSequence
  priority : c.priority ≤ 255
  owner : c.owner.isSome = c.state.owned

/-- A property kept by every update of the second level. -/
structure Calm (P : State → Prop) : Prop extends Soft P where
  offer : ∀ n s, P s → P (modCall n (fun c => if c.state = .queued then { c with state := .offered } else c) s)
  requeue : ∀ n s, P s → P (requeue n s)
  own : ∀ n st s, st.owned = true → (∀ c, s.call n = some c → c.state.owned = true ∨ c.owner.isSome = true) → P s →
    P (modCall n (fun c => { c with state := st }) s)
  drain : ∀ l s, (s.link l).mode = .draining → P s → P (modLink l (fun r => { r with mode := .closed }) s)
  load : ∀ b s, P s → P { s with queueLoad := b }
  abandoned : ∀ l s, (AbandonedOk s.abandonedList → AbandonedOk l) → P s → P { s with abandonedList := l }
  assign : ∀ n c s, s.freeRecord = some n → s.callAt c.post = none → (s.post c.post).pending = false → NewCall s c →
    P s → P (assignRecord n c s)
  assignHead : ∀ e rest n c s, s.pendingList = e :: rest → s.freeRecord = some n → c.post = e.post → NewCall s c →
    P s → P (assignRecord n c { s with pendingList := rest })
  drop : ∀ n c s, s.call n = some c → P s → P (dropRecord n c.post s)
  join : ∀ p r s, s.callAt p = none → (s.post p).pending = false → P s → P (joinPending p r s)
  pass : ∀ e rest s, s.pendingList = e :: rest → P s →
    P (modPost e.post (fun r => { r with pending := false }) { s with pendingList := rest })
  unlist : ∀ p s, P s →
    P (modPost p (fun r => { r with pending := false }) { s with pendingList := s.pendingList.filter (fun e => e.post ≠ p) })

theorem freeRecord_free {n : CallNo} {s : State} (hn : s.freeRecord = some n) : s.call n = none := by
  have := List.find?_some hn
  simpa using this

theorem callAt_call {p : PostId} {s : State} {n : CallNo} {c : Call} (hn : s.callAt p = some (n, c)) :
    s.call n = some c := by
  unfold State.callAt at hn
  split at hn
  · cases hn
  · rename_i ref _
    cases hr : s.call ref.number with
    | none => simp [hr] at hn
    | some d =>
      simp only [hr, Option.map_some, Option.some.injEq, Prod.mk.injEq] at hn
      obtain ⟨rfl, rfl⟩ := hn
      exact hr

namespace Calm

variable {P : State → Prop} (h : Calm P) {s : State}
include h

theorem evaluateLoad (hp : P s) : P (evaluateLoad s) := by
  unfold Machine.evaluateLoad; dsimp only; split
  · exact h.sendBoth _ (h.load true s hp)
  · split
    · exact h.sendBoth _ (h.load false s hp)
    · exact hp

/-! ### Offers -/

theorem offerTo (n : CallNo) (l : Link) (hp : P s) : P (offerTo n l s) := by
  unfold Machine.offerTo; dsimp only
  have h1 := h.offer n _ (h.setOffer n l true hp)
  split
  · exact h1
  · exact h.send l _ h1

theorem withdraw (l : Link) (r : Option WithdrawReason) (n : CallNo) (hp : P s) : P (withdraw l r n s) := by
  unfold Machine.withdraw
  split
  · exact hp
  · split
    · have h1 := h.requeue n _ (h.setOffer n l false hp)
      dsimp only; split
      · exact h1
      · exact h.send l _ h1
    · exact hp

theorem fillLink (l : Link) (hp : P s) : P (fillLink l s) := by
  unfold Machine.fillLink; dsimp only
  apply forEach_keeps
  · intro n s hp; split
    · exact hp
    · split
      · exact h.offerTo n l hp
      · exact hp
  · apply forEach_keeps _ _ hp
    intro n s hp; split
    · exact hp
    · split
      · exact h.offerTo n l hp
      · exact hp

theorem fillBoth (hp : P s) : P (fillBoth s) := h.fillLink .b (h.fillLink .a hp)

theorem withdrawWhere (l : Link) (r : Option WithdrawReason) (t : Call → Bool) (hp : P s) :
    P (withdrawWhere l r t s) := by
  unfold Machine.withdrawWhere
  apply forEach_keeps _ _ hp
  intro n s hp; split
  · exact hp
  · split
    · exact h.withdraw l r n hp
    · exact hp

theorem withdrawToDepth (l : Link) (d : Nat) (hp : P s) : P (withdrawToDepth l d s) :=
  forEach_keeps (fun n _ hp => h.withdraw l _ n hp) _ hp

theorem endDrain (l : Link) (hp : P s) : P (endDrain l s) := by
  unfold Machine.endDrain; split
  · rename_i hc
    simp only [Bool.and_eq_true, decide_eq_true_eq] at hc
    exact h.fillLink _ (h.sendBoth _ (h.sendLinkState (h.withdrawWhere l _ _ (h.drain l s hc.1 hp))))
  · exact hp

theorem endOfCallEvent (hp : P s) : P (endOfCallEvent s) :=
  h.fillBoth (h.endDrain .b (h.endDrain .a (h.evaluateLoad hp)))

/-! ### States of owned calls -/

theorem setCallState (n : CallNo) (st : CallState) (ho : st.owned = true)
    (hs : ∀ c, s.call n = some c → c.state.owned = true ∨ c.owner.isSome = true) (hp : P s) : P (setCallState n st s) :=
  h.placeChannels n (h.own n st s ho hs hp)

omit h in
/-- What the first level leaves of an owned call is owned. -/
theorem owned_of_kept {n : CallNo} {c : Call} (hc : c.state.owned = true ∨ c.owner.isSome = true) (hk : KeptAt n c s) :
    ∀ d, s.call n = some d → d.state.owned = true ∨ d.owner.isSome = true := by
  obtain ⟨e, he, hk⟩ := hk
  intro d hd
  rw [he] at hd
  cases hd
  rw [hk.state, hk.owner]; exact hc

theorem confirmSelect (p : PostId) (n : CallNo) (hs : ∀ c, s.call n = some c → c.state.owned = true) (hp : P s) :
    P (confirmSelect p n s) := by
  unfold Machine.confirmSelect
  refine h.setCallState n .connected rfl (fun c hc => .inl (hs c ?_)) (h.path _ _ _ (fun _ => ⟨rfl, rfl⟩)
    (h.post p _ s (fun _ => ⟨⟨rfl, rfl, rfl, rfl, rfl, rfl, rfl, rfl, rfl, rfl, rfl⟩, rfl, rfl⟩) hp))
  simpa using hc

theorem selectAnswered (p : PostId) (o : Bool) (hp : P s) : P (selectAnswered p o s) := by
  unfold Machine.selectAnswered; split
  · rename_i ref m _ _
    split
    · rename_i hc
      refine h.confirmSelect p _ (fun c hc' => ?_) hp
      simp only [Bool.and_eq_true, Option.any_eq_true] at hc
      obtain ⟨_, d, hd, hst⟩ := hc
      simp only [State.callOf, Option.filter_eq_some_iff] at hd
      rw [hc'] at hd
      cases hd.1
      simp only [decide_eq_true_eq] at hst
      rw [hst]; rfl
    · exact hp
  · exact hp
  · exact hp

/-! ### Creating and freeing records -/

theorem removeAbandoned (p : PostId) (hp : P s) : P (removeAbandoned p s) :=
  h.abandoned _ s (fun ⟨hl, hn⟩ => ⟨Nat.le_trans (List.length_filter_le _ _) hl,
    hn.sublist (List.filter_sublist.map _)⟩) hp

theorem addAbandoned (p : PostId) (o : Seconds) (c : CallClass) (hp : P s) : P (addAbandoned p o c s) := by
  unfold Machine.addAbandoned; dsimp only
  refine h.abandoned _ s (fun ⟨hl, hn⟩ => ?_) hp
  have hlen : (s.abandonedList.filter (fun e => e.post ≠ p)).length ≤ 16 :=
    Nat.le_trans (List.length_filter_le _ _) hl
  have hnd : ((s.abandonedList.filter (fun e => e.post ≠ p) ++
      [(⟨p, o, c, (s.postConfig p).map (·.chainage), s.clock.seconds⟩ : AbandonedEntry)]).map (·.post)).Nodup := by
    rw [List.map_append, List.nodup_append]
    refine ⟨hn.sublist (List.filter_sublist.map _), by simp, ?_⟩
    intro x hx y hy hxy
    simp only [List.map_cons, List.map_nil, List.mem_singleton] at hy
    subst hy; subst hxy
    obtain ⟨e, he, hep⟩ := List.mem_map.mp hx
    simp only [List.mem_filter, decide_eq_true_eq] at he
    exact he.2 hep
  constructor
  · split
    · simp only [List.length_tail, List.length_append, List.length_cons, List.length_nil]; omega
    · omega
  · split
    · rw [List.map_tail]; exact hnd.sublist (List.tail_sublist _)
    · exact hnd

omit h in
theorem newEmergency_new (p : PostId) (r : ClassResult) (o : Seconds) : NewCall s (s.newEmergency p r o) :=
  ⟨rfl, holdAt_le _ _, rfl⟩

theorem createEmergency (p : PostId) (r : ClassResult) (o : Seconds) (ha : s.callAt p = none)
    (hn : (s.post p).pending = false) (hp : P s) : P (createEmergency p r o s) := by
  unfold Machine.createEmergency; split
  · exact hp
  · rename_i n hf
    exact h.tellCall _ (h.removeAbandoned p (h.requestOrder p _
      (h.assign n _ s hf ha hn (newEmergency_new p r o) hp)))

theorem createHead (e : PendingEntry) (rest : List PendingEntry) (hl : s.pendingList = e :: rest) (hp : P s)
    (hf : s.freeRecord ≠ none) :
    P (Machine.createEmergency e.post e.result e.joined { s with pendingList := rest }) := by
  unfold Machine.createEmergency
  have hr : State.freeRecord { s with pendingList := rest } = s.freeRecord := rfl
  rw [hr]; split
  · contradiction
  · rename_i n hn
    exact h.tellCall _ (h.removeAbandoned _ (h.requestOrder _ _
      (h.assignHead e rest n _ s hl hn rfl ⟨rfl, holdAt_le _ _, rfl⟩ hp)))

theorem callRequest (p : PostId) (r : ClassResult) (ha : s.callAt p = none) (hp : P s) : P (callRequest p r s) := by
  unfold Machine.callRequest; split
  · exact hp
  · rename_i hn
    have hn : (s.post p).pending = false := by simpa using hn
    split
    · exact h.evaluateLoad (h.fillBoth (h.createEmergency p r _ ha hn hp))
    · exact h.evaluateLoad (h.join p r s ha hn hp)

omit h in
theorem send_lists (l : Link) (n : Notice) : (Machine.send l n s).pendingList = s.pendingList ∧
    (Machine.send l n s).calls = s.calls := by
  unfold Machine.send; split
  · split <;> exact ⟨rfl, rfl⟩
  · exact ⟨rfl, rfl⟩

omit h in
theorem passOver_lists (e : PendingEntry) : (Machine.passOver e s).pendingList = s.pendingList ∧
    (Machine.passOver e s).calls = s.calls := by
  unfold Machine.passOver Machine.sendBoth; dsimp only
  rw [(send_lists _ _).1, (send_lists _ _).2, (send_lists _ _).1, (send_lists _ _).2]
  exact ⟨rfl, rfl⟩

omit h in
theorem freeRecord_congr {t : State} (hc : t.calls = s.calls) : t.freeRecord = s.freeRecord := by
  unfold State.freeRecord State.call; rw [hc]

theorem recycleTo (l : List PendingEntry) (hl : s.pendingList = l) (hf : s.freeRecord ≠ none) (hp : P s) :
    P (recycleTo l s) := by
  induction l generalizing s with
  | nil => exact hp
  | cons e rest ih =>
    unfold Machine.recycleTo; dsimp only; split
    · exact h.createHead e rest hl hp hf
    · have hq : P (Machine.passOver e { s with pendingList := rest }) := by
        unfold Machine.passOver
        exact h.sendBoth _ (h.addAbandoned _ _ _ (h.pass e rest s hl hp))
      refine ih (passOver_lists e).1 ?_ hq
      rw [freeRecord_congr (passOver_lists e).2]
      exact hf

theorem recycle (fill : Bool) (hf : s.freeRecord ≠ none) (hp : P s) : P (recycle fill s) := by
  unfold Machine.recycle; split
  · exact hp
  · dsimp only; split
    · exact h.fillBoth (h.recycleTo _ rfl hf hp)
    · exact h.recycleTo _ rfl hf hp

/-- What an ending does: it keeps `P`, and it leaves the call table. -/
def Ending (P : State → Prop) (e : State → State) : Prop := ∀ s, P s → P (e s) ∧ (e s).calls = s.calls

omit h in
theorem freeRecord_of_free {n : CallNo} (hn : s.call n = none) : s.freeRecord ≠ none := by
  unfold State.freeRecord
  intro hc
  rw [List.find?_eq_none] at hc
  exact hc n (List.mem_finRange n) (by simp [hn])

theorem freeCall (fill : Bool) (n : CallNo) {ending : State → State} (he : Ending P ending) (hp : P s) :
    P (freeCall fill n ending s) := by
  unfold Machine.freeCall; split
  · exact hp
  · rename_i c hc
    have key : ∀ {Q : State → Prop}, Soft Q → Q s →
        Q (if State.reachable (Machine.freeChannels c (Machine.giveUpPath n (Machine.removeOffers n s))) c.post = true
          then Machine.requestOrder c.post .clear
            (Machine.freeChannels c (Machine.giveUpPath n (Machine.removeOffers n s)))
          else Machine.freeChannels c (Machine.giveUpPath n (Machine.removeOffers n s))) := by
      intro Q hq hs
      have h1 := hq.freeChannels c (hq.giveUpPath n (hq.removeOffers n hs))
      split
      · exact hq.requestOrder _ _ h1
      · exact h1
    obtain ⟨d, hd, hk⟩ := key (soft_keptAt n c) ⟨c, hc, CallKept.refl c⟩
    dsimp only
    have h2 := h.drop n d _ hd (key h.toSoft hp)
    rw [hk.post] at h2
    have h3 := he _ h2
    refine h.recycle fill (freeRecord_of_free (n := n) ?_) h3.1
    rw [State.call, h3.2]
    simp [dropRecord, modPost]

theorem endCall (n : CallNo) {ending : State → State} (he : Ending P ending) (hp : P s) :
    P (endCall n ending s) := h.endOfCallEvent (h.freeCall true n he hp)

omit h in
theorem sendBoth_calls (n : Notice) : (Machine.sendBoth n s).calls = s.calls := by
  unfold Machine.sendBoth; rw [(send_lists _ _).2, (send_lists _ _).2]

theorem endAbandoned (n : CallNo) (c : Call) : Ending P (endAbandoned n c) := fun _ hp =>
  ⟨h.sendBoth _ (h.addAbandoned _ _ _ hp), sendBoth_calls _⟩

theorem endCleared (n : CallNo) (c : Call) (cause : EndCause) (l : Option Link) : Ending P (endCleared n c cause l) :=
  fun _ hp => ⟨h.sendBoth _ hp, sendBoth_calls _⟩

theorem endCallback (n : CallNo) (c : Call) (cause : EndCause) : Ending P (endCallback n c cause) :=
  fun _ hp => ⟨h.sendBoth _ hp, sendBoth_calls _⟩

theorem leavePending (p : PostId) (hp : P s) : P (leavePending p s) := by
  unfold Machine.leavePending; split
  · exact hp
  · exact h.evaluateLoad (h.sendBoth _ (h.addAbandoned _ _ _ (h.unlist p s hp)))

theorem hangUp (n : CallNo) (c : Call) (hp : P s) : P (hangUp n c s) := by
  unfold Machine.hangUp
  split
  · exact h.endCall n (h.endAbandoned n c) hp
  · exact h.endCall n (h.endAbandoned n c) hp
  · exact h.endCall n (h.endCleared n c _ _) hp
  · exact h.endCall n (h.endCleared n c _ _) hp
  · exact h.endCall n (h.endCleared n c _ _) hp
  · exact h.endCall n (h.endCleared n c _ _) hp
  · exact hp
  · exact hp

theorem onHook (p : PostId) (hp : P s) : P (onHook p s) := by
  unfold Machine.onHook; split
  · exact h.hangUp _ _ hp
  · split
    · exact h.leavePending p hp
    · exact hp

theorem answerCallback (n : CallNo) (c : Call) (hc : s.call n = some c) (hr : c.state = .ringing) (hp : P s) :
    P (answerCallback n c s) := by
  unfold Machine.answerCallback; dsimp only
  have key : ∀ {Q : State → Prop}, Soft Q → Q s →
      Q (modCall n (fun c => { c with ringDeadline := none })
        (if ((s.post c.post).ringing || s.outstanding c.post .ringOn) = true then
          Machine.requestOrder c.post .ringOff (modCall n (fun c => { c with cadence := none }) s)
        else modCall n (fun c => { c with cadence := none }) s)) := by
    intro Q hq hs
    have h1 := hq.callSame n (fun c => { c with cadence := none }) (fun _ => rfl) hs
    refine hq.callSame n _ (fun _ => rfl) ?_
    split
    · exact hq.requestOrder _ _ h1
    · exact h1
  exact h.makeRequest n (h.setCallState n .answered rfl
    (owned_of_kept (.inl (by rw [hr]; rfl)) (key (soft_keptAt n c) ⟨c, hc, CallKept.refl c⟩)) (key h.toSoft hp))

theorem offHookCall (p : PostId) (r : ClassResult) (hp : P s) : P (offHookCall p r s) := by
  unfold Machine.offHookCall; split
  · rename_i n c hn
    split
    · rename_i hr
      exact h.answerCallback _ _ (callAt_call hn) hr hp
    · exact hp
  · rename_i hn
    exact h.callRequest p r hn hp

theorem offHook (p : PostId) (r : ClassResult) (hp : P s) : P (offHook p r s) := h.offHookCall p r (h.offHookTest p hp)

theorem loseLineOf (n : CallNo) (c : Call) (hc : s.call n = some c) (hp : P s) : P (loseLineOf n c s) := by
  have hd : ∀ {Q : State → Prop}, Soft Q → ∀ s, Q s → Q (modCall n (fun c => { c with lineDown := true }) s) :=
    fun hq _ hp => hq.callSame n _ (fun _ => rfl) hp
  have hl : c.state.owned = true → P (match c.owner with
      | some l => Machine.send l (.lineLost (c.ref n) c.post)
          (Machine.setCallState n .lineLost (Machine.giveUpPath n (modCall n (fun c => { c with lineDown := true }) s)))
      | none => Machine.setCallState n .lineLost
          (Machine.giveUpPath n (modCall n (fun c => { c with lineDown := true }) s))) := by
    intro ho
    have hk := owned_of_kept (.inl ho) ((soft_keptAt n c).giveUpPath n (hd (soft_keptAt n c) s ⟨c, hc, CallKept.refl c⟩))
    have h1 := h.setCallState n .lineLost rfl hk (h.giveUpPath n (hd h.toSoft s hp))
    split
    · exact h.send _ _ h1
    · exact h1
  unfold Machine.loseLineOf; dsimp only
  split
  · exact hd h.toSoft s hp
  · exact hd h.toSoft s hp
  · exact h.releasePath n (hd h.toSoft s hp)
  · rename_i e; exact hl (by rw [e]; rfl)
  · rename_i e; exact hl (by rw [e]; rfl)
  · rename_i e; exact hl (by rw [e]; rfl)
  · exact hp
  · exact h.endCall n (h.endCallback n c _) hp

theorem callLineLoss (p : PostId) (hp : P s) : P (callLineLoss p s) := by
  unfold Machine.callLineLoss; split
  · rename_i hn
    exact h.loseLineOf _ _ (callAt_call hn) hp
  · exact hp

theorem postLineLoss (p : PostId) (hp : P s) : P (pathLineLoss p (Machine.callLineLoss p s)) :=
  h.pathLineLoss p (h.callLineLoss p hp)

theorem returnLineOf (n : CallNo) (c : Call) (off : Bool) (hc : s.call n = some c) (hp : P s) :
    P (returnLineOf n c off s) := by
  have hd : ∀ {Q : State → Prop}, Soft Q → ∀ s, Q s → Q (modCall n (fun c => { c with lineDown := false }) s) :=
    fun hq _ hp => hq.callSame n _ (fun _ => rfl) hp
  have hu := hd h.toSoft s hp
  unfold Machine.returnLineOf; dsimp only
  split
  · split
    · exact hu
    · exact h.hangUp n c hp
  · split
    · exact hu
    · exact h.hangUp n c hp
  · split
    · exact hu
    · exact h.hangUp n c hp
  · rename_i e
    have h1 := h.makeRequest n (h.setCallState n .answered rfl
      (owned_of_kept (.inl (by rw [e]; rfl)) (hd (soft_keptAt n c) s ⟨c, hc, CallKept.refl c⟩)) hu)
    split
    · split
      · exact h.send _ _ h1
      · exact h1
    · exact h.endCall n (h.endCleared n c _ _) hp
  · exact hp
  · exact hp
  · exact hp
  · exact hp

theorem lineReturn (p : PostId) (off : Bool) (hp : P s) : P (lineReturn p off s) := by
  unfold Machine.lineReturn; split
  · rename_i hn
    exact h.returnLineOf _ _ _ (callAt_call hn) hp
  · split
    · exact h.leavePending p hp
    · exact hp

end Calm

end Sys2Proof.Machine
end

