-- ==== Sys2Proof/Laws/Firm.lean ====
section
/-! SUPPORT. The third level: every update the part makes. A property that each of them keeps is kept by every row
(`Firm.exec`), so an invariant of the whole machine is proved update by update and never row by row. -/

namespace Sys2Proof.Machine

open Sys2Proof

/-- A call record after any update but an answer, a transfer, its creation or its end. -/
structure CallSteady (c c' : Call) : Prop where
  sequence : c'.sequence = c.sequence
  post : c'.post = c.post
  state : c'.state = c.state
  owner : c'.owner = c.owner
  priority : c.priority ≤ 255 → c'.priority ≤ 255

/-- A property kept by every update the part makes. -/
structure Firm (P : State → Prop) : Prop extends Calm P where
  linkAny : ∀ l f s, (∀ r, (f r).mode = r.mode ∧ (r.transfers ≤ 255 → (f r).transfers ≤ 255)) → P s → P (modLink l f s)
  accept : ∀ l s, P s → P (modLink l (fun r => { r with mode := .accepting }) s)
  hand : ∀ l f s, (s.link l.other).mode = .accepting → (∀ r, r.transfers ≤ 255 → (f r).transfers ≤ 255) → P s →
    P (modLink l f s)
  pathAny : ∀ g f s, P s → P (modPath g f s)
  pollAny : ∀ g f s, ((s.poll g).Distinct → (f (s.poll g)).Distinct) → P s → P (modPoll g f s)
  postAny : ∀ p f s, ((s.post p).CountsOk → (f (s.post p)).CountsOk) → (f (s.post p)).call = (s.post p).call →
    (f (s.post p)).pending = (s.post p).pending → P s → P (modPost p f s)
  callAny : ∀ n f s, (∀ c, CallSteady c (f c)) → P s → P (modCall n f s)
  take : ∀ n x k st s, st.owned = true → P s → P (modCall n (fun c => { c.answeredBy x k with state := st }) s)
  give : ∀ n now loc s, P s → P (modCall n (Call.transferring now loc) s)
  turn : ∀ n x k s, (∀ c, s.call n = some c → c.owner.isSome = true) → P s →
    P (modCall n (fun c => { c with owner := some x, ownerChannel := some k, joinedChannel := none }) s)
  line : ∀ g f s, (∀ u, (f u).feed = u.feed ∧ (f u).trips = u.trips) → P s → P (modLine g f s)
  move : ∀ g new now s, new ≠ .locked → (s.line g).feed ≠ .locked → P s → P (modLine g (LineUnit.moveTo new now) s)
  trip : ∀ g now s, (s.line g).feed.powered = true → P s → P (modLine g (LineUnit.moveTo
    (if (s.line g).tripCount now = 3 then .locked else .tripped) now) (modLine g
      (fun u => { u with trips := (s.line g).tripCount now }) s))
  reEnable : ∀ g now s, (s.line g).feed = .locked → P s →
    P (modLine g (LineUnit.moveTo .powering now) (modLine g (fun u => { u with trips := 0 }) s))
  revision : ∀ r s, P s → P { s with manager := { s.manager with revision := r } }
  postConfig : ∀ p c s, (∀ x, c = some x → (x.Legal ∨ ∃ y, s.postConfig p = some y ∧ ∃ z, z ≠ 0#32 ∧
    x = { y with serial := some z })) → P s → P (setPostConfig p c s)
  segmentConfig : ∀ g c s, c.Legal → P s → P (setSegmentConfig g c s)
  window : ∀ (n : WindowNo) w s, w.Legal → P s → P { s with tables := { s.tables with windows := s.tables.windows.set n w } }
  cls : ∀ (n : EntryNo) e s, e.Legal → P s → P { s with tables := { s.tables with classes := s.tables.classes.set n e } }
  defaults : ∀ d s, d.Legal → P s → P { s with tables := { s.tables with defaults := d } }
  links : ∀ l c s, c.Legal → P s → P { s with tables := { s.tables with links := s.tables.links.set l c } }
  lock : ∀ s, P s → P { s with manager := { s.manager with lock := true } }
  save : ∀ s, P s → P (saveImageEffect s)
  written : ∀ v s, s.manager.save = some v → P s → P { s with
    memory := { marker := imageMarker, revision := v.revision, size := imageSize, tables := v.snapshot, crcGood := true }
    manager := { s.manager with save := some { v with stage := .readingBack } } }
  saved : ∀ i s, P s → P { s with manager := { s.manager with image := i, save := none } }
  loaded : ∀ t r i s, (t = s.memory.tables ∨ t = Tables.withoutImage) → s.supply.phase = .loading → P s → P { s with
    supply := { s.supply with phase := .running }
    tables := t
    manager := { s.manager with revision := r, image := i, loadDue := none } }
  powerOn : ∀ s, P s → P (powerOn s)
  senseLow : ∀ s, P s → P (supplySenseLow s)
  senseGood : ∀ s, P s → P (supplySenseGood s)
  holdOff : ∀ s, P s → P (holdOffExpiry s)
  pinLow : ∀ s, P s → P (resetPinAssert s)
  pinHigh : ∀ s, P s → P (resetPinRelease s)
  clock : ∀ c s, P s → P { s with clock := c }
  time : ∀ t s, P s → P { s with timebase := t }
  battery : ∀ b s, P s → P { s with onBattery := b }
  failed : ∀ b s, P s → P { s with loadFailed := b }
  frames : ∀ f s, P s → P { s with framed := f }

theorem modLine_modLine (g : SegId) (f k : LineUnit → LineUnit) (s : State) :
    modLine g f (modLine g k s) = modLine g (fun u => f (k u)) s := by
  simp [modLine, modSegment]

theorem modCall_modCall (n : CallNo) (f k : Call → Call) (s : State) :
    modCall n f (modCall n k s) = modCall n (fun c => f (k c)) s := by
  simp [modCall, putCall, State.call, Function.comp_def]

namespace Firm

variable {P : State → Prop} (h : Firm P) {s : State}
include h

omit h in
theorem outside (f : State → State) (hf : P s → P (f s)) (hp : P s) : P (outsideReset f s) := by
  unfold outsideReset; split
  · exact hp
  · exact hf hp

theorem reach (t : Nat) (hp : P s) : P (reach t s) := h.time _ s hp

theorem reachTimer (t : Option Nat) (hp : P s) : P (reachTimer t s) := by
  unfold Machine.reachTimer; split
  · exact hp
  · exact h.reach _ hp

/-! ### Links -/

theorem restartLoss (x : Link) (hp : P s) : P (restartLoss x s) := h.linkAny x _ s (fun _ => ⟨rfl, id⟩) hp

theorem countTransfer (l : Link) (hp : P s) : P (countTransfer l s) :=
  h.linkAny l _ s (fun _ => ⟨rfl, fun _ => holdAt_le _ _⟩) hp

theorem passToPeer (n : CallNo) (c : Call) (x : Link) (k : ChanNo) (cause : TransferCause)
    (ho : ∀ d, s.call n = some d → d.owner.isSome = true) (hp : P s) : P (passToPeer n c x k cause s) := by
  unfold Machine.passToPeer
  have key : ∀ {Q : State → Prop}, Soft Q → Q s → Q (forEach c.ownerChannel.toList (Machine.freeChannel x) s) :=
    fun hq hs => forEach_keeps (fun k _ hs => hq.freeChannel x k hs) _ hs
  refine h.sendBoth _ (h.countTransfer x (h.placeChannels n (h.turn n _ _ _ (fun d hd => ?_) (key h.toSoft hp))))
  cases hs : s.call n with
  | none =>
    have : ∀ (l : List ChanNo) (s : State), (forEach l (Machine.freeChannel x) s).calls = s.calls := by
      intro l; unfold forEach
      induction l with
      | nil => exact fun _ => rfl
      | cons k l ih => intro s; rw [List.foldl_cons, ih]; rfl
    rw [State.call, this] at hd
    rw [State.call] at hs
    rw [hs] at hd; cases hd
  | some e =>
    obtain ⟨d', hd', hk⟩ := key (soft_keptAt n e) ⟨e, hs, CallKept.refl e⟩
    rw [hd] at hd'; cases hd'
    rw [hk.owner]; exact ho e hs

theorem transferPath (n : CallNo) (c : Call) (hp : P s) : P (transferPath n c s) := by
  unfold Machine.transferPath; split
  · exact h.path _ _ s (fun _ => ⟨rfl, rfl⟩) hp
  · exact h.giveUpPath n hp
  · exact hp
  · exact hp
  · exact hp
  · exact hp
  · exact hp
  · exact hp

theorem makeTransferring (n : CallNo) (c : Call) (x : Link) (cause : TransferCause) (hp : P s) :
    P (makeTransferring n c x cause s) :=
  h.sendBoth _ (h.countTransfer x (h.give n _ _ _ (h.transferPath n c (h.freeChannels c hp))))

theorem transferCall (x : Link) (cause : TransferCause) (n : CallNo) (hp : P s) : P (transferCall x cause n s) := by
  unfold Machine.transferCall; split
  · exact hp
  · rename_i c hc
    split
    · exact hp
    · rename_i ho
      split
      · exact h.freeCall false n (h.endCallback n _ _) hp
      · split
        · refine h.passToPeer n _ x _ cause (fun d hd => ?_) hp
          rw [hc] at hd; cases hd
          simp only [ne_eq, Decidable.not_not] at ho
          rw [ho]; rfl
        · exact h.makeTransferring n _ x cause hp

theorem transferAll (x : Link) (cause : TransferCause) (hp : P s) : P (transferAll x cause s) :=
  forEach_keeps (fun n _ hp => h.transferCall x cause n hp) _ hp

theorem leaveAll (x : Link) (hp : P s) : P (leaveAll x s) := by
  unfold Machine.leaveAll
  apply forEach_keeps _ _ hp
  intro n s hp; split
  · exact hp
  · exact h.callAny n _ _ (fun _ => ⟨rfl, rfl, rfl, rfl, id⟩) (forEach_keeps (fun k _ hp => h.freeChannel x k hp) _ hp)

theorem linkLost (x : Link) (hp : P s) : P (linkLost x s) :=
  h.fillLink _ (h.evaluateLoad (h.sendLinkState (h.endDrain x (h.transferAll x _ (h.leaveAll x
    (h.openHomedOn x (h.withdrawWhere x _ _ hp)))))))

theorem linkGoesDown (x : Link) (hp : P s) : P (linkGoesDown x s) :=
  h.linkLost x (h.linkAny x _ s (fun _ => ⟨rfl, id⟩) hp)

theorem linkLossExpiry (x : Link) (hp : P s) : P (linkLossExpiry x s) := by
  unfold Machine.linkLossExpiry
  refine outside _ (fun hp => ?_) hp
  split
  · exact hp
  · split
    · exact h.linkGoesDown x (h.reach _ hp)
    · exact hp

theorem linkComesUp (x : Link) (hp : P s) : P (linkComesUp x s) :=
  h.fillLink x (h.sendLinkState (h.sendStartedIfDue x (h.linkAny x _ s (fun _ => ⟨rfl, id⟩) hp)))

theorem signOfLife (x : Link) (hp : P s) : P (signOfLife x s) := by
  unfold Machine.signOfLife; dsimp only; split
  · exact h.restartLoss x hp
  · exact h.linkComesUp x (h.restartLoss x hp)

/-- A command: its checks and its effect are taken in the state its response was queued in. -/
theorem runCommand (x : Link) (tag : Tag) (k : CommandType) {check : State → Option RefusalCode} (reply : State → Reply)
    {effect : State → State}
    (he : ∀ s t, check s = none → (t = Machine.respond x tag k (.done (reply s)) s) → P t → P (effect t)) (hp : P s) :
    P (runCommand x tag k check reply effect s) := by
  unfold Machine.runCommand
  refine outside _ (fun hp => ?_) hp
  have h1 := h.signOfLife x hp
  dsimp only
  split
  · exact h.respond _ _ _ _ h1
  · rename_i hc
    exact he _ _ hc rfl (h.respond _ _ _ _ h1)

theorem runAny (x : Link) (tag : Tag) (k : CommandType) (check : State → Option RefusalCode) (reply : State → Reply)
    {effect : State → State} (he : ∀ s, P s → P (effect s)) (hp : P s) :
    P (Machine.runCommand x tag k check reply effect s) := h.runCommand x tag k reply (fun _ t _ _ => he t) hp

/-! ### Handover -/

theorem finishEffect (x : Link) (ho : (s.link x.other).mode = .accepting) (hp : P s) : P (finishEffect x s) := by
  unfold Machine.finishEffect; split
  · exact hp
  · exact h.fillBoth (h.endDrain x (h.sendLinkState (h.openHomedOn x (h.withdrawWhere x _ _
      (h.hand x _ s ho (fun _ _ => Nat.zero_le _) hp)))))

theorem immediateEffect (x : Link) (ho : (s.link x.other).mode = .accepting) (hp : P s) : P (immediateEffect x s) := by
  unfold Machine.immediateEffect
  refine h.fillBoth (h.evaluateLoad (h.sendBoth _ (h.sendLinkState (h.transferAll x _ (h.openHomedOn x
    (h.withdrawWhere x _ _ (h.hand x _ s ho (fun r hr => ?_) hp)))))))
  dsimp only; split
  · exact Nat.zero_le _
  · exact hr

theorem resumeEffect (x : Link) (hp : P s) : P (resumeEffect x s) := by
  unfold Machine.resumeEffect; split
  · exact hp
  · exact h.fillLink x (h.sendLinkState (h.accept x s hp))

omit h in
theorem link_respond (x l : Link) (t : Tag) (k : CommandType) (r : Result) :
    ((Machine.respond x t k r s).link l).mode = (s.link l).mode := by
  unfold Machine.respond Machine.enqueue
  rw [link_modLink]; split
  · rfl
  · rfl

omit h in
theorem handover_peer {x : Link} (hc : handoverChecks x s = none) : (s.link x.other).mode = .accepting := by
  unfold handoverChecks at hc
  cases h2 : s.taking x.other with
  | true =>
    simp only [State.taking, Bool.and_eq_true, decide_eq_true_eq] at h2
    exact h2.2
  | false =>
    rw [h2] at hc
    cases h1 : s.loading <;> rw [h1] at hc
    · cases h3 : decide ((s.link x).mode = .closed) <;> rw [h3] at hc <;> simp [firstRefusal] at hc
    · simp [firstRefusal] at hc

theorem handover (x : Link) (tag : Tag) {effect : State → State}
    (he : ∀ s, (s.link x.other).mode = .accepting → P s → P (effect s)) (hp : P s) :
    P (Machine.runCommand x tag .handover (handoverChecks x) (fun _ => .empty) effect s) :=
  h.runCommand x tag _ _ (fun s t hc ht hp => he t (by rw [ht, link_respond]; exact handover_peer hc) hp) hp

/-! ### Commands on calls -/

omit h in
theorem onCall (c : CallArg) {effect : CallNo → Call → State → State}
    (he : ∀ n r s, s.call n = some r → P s → P (effect n r s)) (hp : P s) : P (onCall c effect s) := by
  unfold Machine.onCall; split
  · exact hp
  · rename_i n r hl
    refine he n r s ?_ hp
    unfold State.lookup at hl
    split at hl
    · cases hl
    · split at hl
      · cases hl
      · split at hl
        · rename_i hr _
          cases hl; exact hr
        · cases hl

omit h in
theorem onCallChannel (c : CallArg) (k : Nat) {effect : CallNo → Call → ChanNo → State → State}
    (he : ∀ n r k s, s.call n = some r → P s → P (effect n r k s)) (hp : P s) : P (onCallChannel c k effect s) := by
  unfold Machine.onCallChannel; split
  · exact hp
  · exact onCall c (fun n r s => he n r _ s) hp

omit h in
theorem answeredState_owned (c : Call) : c.answeredState.owned = true := by
  unfold Call.answeredState; split
  · rfl
  · split <;> rfl

theorem answerEffect (x : Link) (n : CallNo) (c : Call) (k : ChanNo) (hp : P s) : P (answerEffect x n c k s) := by
  unfold Machine.answerEffect Machine.setCallState
  have h1 := h.withdraw x.other (some (.answered x)) n (h.setOffer n x false hp)
  have h2 := h.placeChannels n (h.take n x k _ _ (answeredState_owned c) h1)
  have h3 := modCall_modCall n (fun d => { d with state := c.answeredState }) (Call.answeredBy x k)
    (Machine.withdraw x.other (some (.answered x)) n (Machine.setOffer n x false s))
  rw [← h3] at h2
  dsimp only
  split
  · exact h.fillBoth (h.evaluateLoad (h.makeRequest n h2))
  · exact h.fillBoth (h.evaluateLoad (h.path _ _ _ (fun _ => ⟨rfl, rfl⟩) h2))
  · exact h.fillBoth (h.evaluateLoad h2)

theorem declineEffect (x : Link) (n : CallNo) (c : Call) (hp : P s) : P (declineEffect x n c s) := by
  unfold Machine.declineEffect
  have h1 := h.setOffer n x false hp
  dsimp only
  split
  · exact h.fillBoth (h.requeue n _ (h.callSame n _ (fun _ => rfl) (h.openCall n h1)))
  · exact h.fillBoth (h.requeue n _ (h.callSame n _ (fun _ => rfl) h1))

theorem holdEffect (n : CallNo) (c : Call) (ho : c.state.owned = true ∨ c.owner.isSome = true) (hc : s.call n = some c) (hp : P s) :
    P (holdEffect n c s) :=
  h.setCallState n .held rfl (Calm.owned_of_kept ho ((soft_keptAt n c).giveUpPath n ⟨c, hc, CallKept.refl c⟩))
    (h.giveUpPath n hp)

theorem retrieveEffect (n : CallNo) (c : Call) (ho : c.state.owned = true ∨ c.owner.isSome = true) (hc : s.call n = some c) (hp : P s) :
    P (retrieveEffect n c s) :=
  h.makeRequest n (h.setCallState n .answered rfl (fun d hd => by rw [hc] at hd; cases hd; exact ho) hp)

theorem barIfOff (p : PostId) (hp : P s) : P (barIfOff p s) := by
  unfold Machine.barIfOff; split
  · exact h.postAny p _ s id rfl rfl hp
  · exact hp

theorem releaseEffect (x : Link) (n : CallNo) (c : Call) (hp : P s) : P (releaseEffect x n c s) :=
  h.endCall n (h.endCleared n c _ _) (h.barIfOff _ hp)

theorem joinEffect (n : CallNo) (c : Call) (k : ChanNo) (hp : P s) : P (joinEffect n c k s) :=
  h.placeChannels n (h.callAny n _ _ (fun _ => ⟨rfl, rfl, rfl, rfl, id⟩) hp)

theorem leaveEffect (x : Link) (n : CallNo) (c : Call) (hp : P s) : P (leaveEffect x n c s) :=
  h.callAny n _ _ (fun _ => ⟨rfl, rfl, rfl, rfl, id⟩) (forEach_keeps (fun k _ hp => h.freeChannel x k hp) _ hp)

end Firm

end Sys2Proof.Machine
end

