-- ==== Sys2Proof/Laws/Legal.lean ====
section
/-! SUPPORT. What the write commands store lies in its range (R159): one lemma per command. -/

namespace Sys2Proof.Machine

open Sys2Proof

theorem holdIn_range {lo hi : Nat} (h : lo ≤ hi) (n : Nat) : lo ≤ holdIn lo hi n ∧ holdIn lo hi n ≤ hi := by
  unfold holdIn; omega

theorem storedPost_legal {f : PostFields} {c : PostConfig} (h : storedPost f = some c) : c.Legal := by
  unfold storedPost at h
  split at h
  · split at h
    · rename_i hr
      simp only [Bool.and_eq_true, decide_eq_true_eq, Option.all_eq_true] at hr
      cases h
      refine ⟨hr.1, hr.2, ?_⟩
      intro he
      have := Option.filter_eq_some_iff.mp he
      simp at this
    · cases h
  all_goals cases h

theorem storedSegment_legal (f : SegmentFields) (e : Bool) : (storedSegment f e).Legal := by
  have h1 := holdIn_range (lo := 20) (hi := 60) (by decide) f.turnOn
  have h2 := holdIn_range (lo := 18) (hi := holdIn 20 60 f.turnOn - 2) (by omega) f.turnOff
  have h3 := holdIn_range (lo := 0) (hi := 4095) (by decide) f.turnaround
  have h4 := holdIn_range (lo := 100) (hi := 1500) (by decide) f.cableConstant
  have h5 := holdIn_range (lo := 0) (hi := 2000) (by decide) f.tolerance
  have h6 := holdIn_range (lo := 0) (hi := 255) (by decide) f.testThreshold
  have h7 := holdIn_range (lo := 1) (hi := 40) (by decide) f.ringPeriod
  have h8 := holdIn_range (lo := 0) (hi := holdIn 1 40 f.ringPeriod) (by omega) f.ringOnTime
  have h9 := holdIn_range (lo := 10) (hi := 300) (by decide) f.ringTimeout
  unfold storedSegment SegmentConfig.Legal
  dsimp only
  omega

theorem storedWindow_legal {f : WindowFields} {w : Window} (h : storedWindow f = some w) : w.Legal := by
  unfold storedWindow at h
  split at h
  · split at h
    · rename_i hr
      simp only [Bool.and_eq_true, decide_eq_true_eq] at hr
      cases h
      refine ⟨Nat.le_trans (Nat.div_mul_le_self _ _) hr.1, ?_, holdIn_range (by decide) _, hr.2⟩
      unfold Window.size
      exact Nat.mul_mod_left _ _
    · cases h
  all_goals cases h

theorem storedClass_legal {f : ClassFields} {e : ClassEntry} (h : storedClass f = some e) : e.Legal := by
  unfold storedClass at h
  split at h
  · cases h
  · split at h
    · rename_i hr
      cases h
      exact ⟨by simpa using hr, (holdIn_range (by decide) _).2⟩
    · cases h

theorem storedDefaults_legal (l : Link) (w o : Nat) : (storedDefaults l w o).Legal :=
  ⟨(holdIn_range (by decide) _).2, holdIn_range (by decide) _⟩

theorem storedLink_legal (d t : Nat) : (storedLink d t).Legal :=
  ⟨holdIn_range (by decide) _, holdIn_range (by decide) _⟩

/-- The empty tables are in range. -/
theorem withoutImage_legal : Tables.withoutImage.Legal where
  posts g a c h := by simp [Tables.withoutImage] at h
  segments g := by simp [Tables.withoutImage, SegmentConfig.withoutImage, SegmentConfig.Legal]
  windows w := by simp [Tables.withoutImage, Window.withoutImage, Window.Legal]
  classes e := by simp [Tables.withoutImage, ClassEntry.withoutImage, ClassEntry.Legal]
  defaults := by simp [Tables.withoutImage, Defaults.withoutImage, Defaults.Legal]
  links l := by cases l <;> simp [Tables.withoutImage, LinkConfig.withoutImage, LinkConfig.Legal, PerLink.get, PerLink.both]

end Sys2Proof.Machine
end

