-- ==== Sys2Proof/Laws/FirmRows.lean ====
section
/-! SUPPORT. A property that every update keeps is kept by every row: the rest of the operations, and `Firm.exec`. -/

namespace Sys2Proof.Machine

open Sys2Proof

namespace Firm

variable {P : State → Prop} (h : Firm P) {s : State}
include h

theorem pollKeep (g : SegId) (f : Poll → Poll) (hf : ∀ q, (f q).queue = q.queue) (hp : P s) : P (modPoll g f s) :=
  h.pollAny g f s (fun hd => by unfold Poll.Distinct at *; rw [hf _]; exact hd) hp

theorem lineKeep (g : SegId) (f : LineUnit → LineUnit) (hf : ∀ u, (f u).feed = u.feed ∧ (f u).trips = u.trips)
    (hp : P s) : P (modLine g f s) := h.line g f s hf hp

/-! ### Table changes -/

theorem countChange (i : TableItem) (c : ChangeSource) (hp : P s) : P (countChange i c s) :=
  h.sendBoth _ (h.revision _ s hp)

theorem learnSerial (p : PostId) (x : Serial) (hp : P s) : P (learnSerial p x s) := by
  unfold Machine.learnSerial; split
  · exact hp
  · rename_i c hc
    split
    · rename_i hx
      simp only [Bool.and_eq_true, decide_eq_true_eq] at hx
      refine h.countChange _ _ (h.postConfig p _ s (fun y hy => ?_) hp)
      cases hy
      exact .inr ⟨c, hc, x, hx.2, rfl⟩
    · exact hp

omit h in
theorem nextMismatch_le {k t : Nat} (hk : k ≤ 3) (x : LastSample) (f c : Option Nat) : nextMismatch k t x f c ≤ 3 := by
  unfold nextMismatch; split
  · split
    · exact Nat.min_le_left _ _
    · exact Nat.zero_le _
  all_goals exact hk

theorem locateReport (p : PostId) (d : Nat) (x : Serial) (hp : P s) : P (locateReport p d x s) :=
  h.learnSerial p x (h.sendMismatch p _ (h.postAny p _ s (fun hr => ⟨hr.1, nextMismatch_le hr.2 _ _ _⟩) rfl rfl hp))

theorem resetLocation (p : PostId) (hp : P s) : P (resetLocation p s) :=
  h.sendMismatch p _ (h.postAny p _ s (fun hr => ⟨hr.1, Nat.zero_le _⟩) rfl rfl hp)

/-! ### Classification -/

theorem updateAlarms (p : PostId) (l : List EntryNo) (hp : P s) : P (updateAlarms p l s) := by
  unfold Machine.updateAlarms; dsimp only
  refine h.postAny p _ _ id rfl rfl (forEach_keeps (fun e s hp => ?_) _ hp)
  split
  · exact h.sendBoth _ hp
  · split
    · exact h.sendBoth _ hp
    · exact hp

theorem escalate (p : PostId) (r : ClassResult) (hp : P s) : P (escalate p r s) := by
  unfold Machine.escalate; split
  · exact hp
  · split
    · exact hp
    · rename_i ref _ c hc
      split
      · have := putCall_eq_modCall hc (fun d => { d with
          cls := r.cls, weight := r.weight, priority := holdAt 255 (d.priority + (r.weight - d.weight)),
          location := s.locationOf p })
        rw [this]
        exact h.callAny _ _ s (fun _ => ⟨rfl, rfl, rfl, rfl, fun _ => holdAt_le _ _⟩) hp
      · exact hp

theorem classifyReport (p : PostId) (f : ReportFormat) (l : List Byte) (hp : P s) : P (classifyReport p f l s).1 :=
  h.escalate p _ (h.updateAlarms p _ hp)

/-! ### Feed states -/

theorem postsAll (g : SegId) (f : Post → Post) (hf : ∀ r, (r.CountsOk → (f r).CountsOk) ∧ (f r).call = r.call ∧
    (f r).pending = r.pending) (hp : P s) : P (modPostsOf g f s) := by
  unfold modPostsOf
  have : ∀ (l : List Addr) (s : State), P s → P (l.foldl (fun s a => modPost ⟨g, a⟩ f s) s) := by
    intro l
    induction l with
    | nil => exact fun _ hp => hp
    | cons a l ih => exact fun s hp => ih _ (h.postAny _ _ s (hf _).1 (hf _).2.1 (hf _).2.2 hp)
  exact this _ s hp

theorem resetPosts (g : SegId) (b : Bool) (hp : P s) : P (resetPosts g b s) := by
  refine h.pollAny g _ _ (fun _ => List.nodup_nil)
    (h.postsAll g _ (fun r => ⟨fun hr => ⟨Nat.zero_le _, hr.2⟩, rfl, rfl⟩) hp)

theorem segmentLineLoss (g : SegId) (hp : P s) : P (segmentLineLoss g s) :=
  h.abandonTestAndGrant _ _ (h.requests _ _ (forEach_keeps (fun a _ hp => h.callLineLoss ⟨g, a⟩ hp) _ hp))

theorem enterFeed (g : SegId) (old new : FeedState) (hp : P s) : P (enterFeed g old new s) := by
  have hl : ∀ s, P s → P (enterFeed.leave g old s) := by
    intro s hp; unfold enterFeed.leave; dsimp only; split
    · exact h.segmentLineLoss g (h.resetPosts g _ hp)
    · exact h.resetPosts g _ hp
  unfold Machine.enterFeed; split
  · exact h.pollAny g _ s (fun hd => Poll.toNormal_distinct hd) hp
  · exact h.evaluateGrant g (h.pollKeep g _ (fun _ => rfl) hp)
  · exact h.pollAny g _ s (fun hd => Poll.toNormal_distinct hd) hp
  · exact hl s hp
  · exact hl s hp
  · exact hl s hp
  · exact hl s hp
  · exact hl s hp

/-- A change of feed state keeps what its own change of the Line Unit's part keeps. -/
theorem changeFeed (g : SegId) (new : FeedState) (cause : SegmentCause)
    (hl : P (modLine g (LineUnit.moveTo new s.timebase) s)) : P (changeFeed g new cause s) :=
  h.sendBoth _ (h.enterFeed g _ new hl)

/-- A move between two states that are not LOCKED. -/
theorem moveFeed (g : SegId) (new : FeedState) (cause : SegmentCause) (hn : new ≠ .locked)
    (ho : (s.line g).feed ≠ .locked) (hp : P s) : P (Machine.changeFeed g new cause s) :=
  h.changeFeed g new cause (h.move g new _ s hn ho hp)

theorem trips (g : SegId) (cause : SegmentCause) (hf : (s.line g).feed.powered = true) (hp : P s) :
    P (Machine.trip g cause s) := h.changeFeed g _ cause (h.trip g _ s hf hp)

omit h in
theorem powered_ne {f : FeedState} (hf : f.powered = true) : f ≠ .locked := by rintro rfl; cases hf

omit h in
theorem inService_ne {f : FeedState} (hf : f.inService = true) : f ≠ .locked := by rintro rfl; cases hf

theorem voltageFalls (g : SegId) (hp : P s) : P (voltageFalls g s) := by
  unfold Machine.voltageFalls; dsimp only
  split
  · split
    · exact h.line g _ s (fun _ => ⟨rfl, rfl⟩) hp
    · exact hp
  · split
    · rename_i hc
      simp only [Bool.and_eq_true, decide_eq_true_eq] at hc
      exact h.moveFeed g _ _ (by decide) (by rw [hc.1]; decide) hp
    · exact hp

theorem voltageReturns (g : SegId) (hp : P s) : P (voltageReturns g s) := h.line g _ s (fun _ => ⟨rfl, rfl⟩) hp

theorem voltageRises (g : SegId) (hp : P s) : P (voltageRises g s) := by
  unfold Machine.voltageRises; dsimp only
  split
  · rename_i hc
    exact h.moveFeed g _ _ (by decide) (by rw [hc]; decide) hp
  · split
    · exact h.line g _ s (fun _ => ⟨rfl, rfl⟩) hp
    · exact hp

theorem thresholdCrossings (g : SegId) (o n : SegmentConfig) (hp : P s) : P (thresholdCrossings g o n s) := by
  unfold Machine.thresholdCrossings; dsimp only
  split
  · split
    · exact h.voltageFalls g hp
    · have h1 : P (if ((decide ((s.line g).volts < o.turnOff) && decide (n.turnOff ≤ (s.line g).volts)) = true) then
          Machine.voltageReturns g s else s) := by
        split
        · exact h.voltageReturns g hp
        · exact hp
      split
      · exact h.voltageRises g h1
      · exact h1
  · exact hp

theorem sampleFeed (g : SegId) (v : Nat) (o : Bool) (hp : P s) : P (sampleFeed g v o s) :=
  h.line g _ s (fun _ => ⟨rfl, rfl⟩) hp

theorem clearStartUp (g : SegId) (hp : P s) : P (clearStartUp g s) := h.line g _ s (fun _ => ⟨rfl, rfl⟩) hp

omit h in
theorem line_modLine_self (g : SegId) (f : LineUnit → LineUnit) : (modLine g f s).line g = f (s.line g) := by
  simp

/-! ### The Poll Scheduler -/

theorem sendOrder (p : PostId) (o : Order) (q : Bool) (hp : P s) : P (sendOrder p o q s) := by
  unfold Machine.sendOrder; dsimp only
  have h1 : P (modPoll p.seg (fun q => { q with burst := orderBurst p.addr o }) s) := h.pollKeep _ _ (fun _ => rfl) hp
  split
  · exact h.pollKeep _ _ (fun _ => rfl) h1
  · exact h1

theorem postLineLoss (p : PostId) (hp : P s) : P (postLineLoss p s) := h.pathLineLoss p (h.callLineLoss p hp)

theorem dropEntry (p : PostId) (hp : P s) : P (dropEntry p s) :=
  h.pollAny p.seg _ s (fun hd => by
    unfold Poll.Distinct at *
    exact hd.sublist (List.filter_sublist.map _)) hp

theorem losePresent (p : PostId) (hp : P s) : P (losePresent p s) :=
  h.postLineLoss p (h.sendBoth _ (h.dropEntry p (h.postAny p _ s id rfl rfl hp)))

theorem countMiss (p : PostId) (o : Order) (hp : P s) : P (countMiss p o s) := by
  unfold Machine.countMiss; split
  · exact hp
  · dsimp only
    have h1 : P (modPost p (fun r => { r with missed := min 3 ((s.post p).missed + 1) }) s) :=
      h.postAny p _ s (fun hr => ⟨Nat.min_le_left _ _, hr.2⟩) rfl rfl hp
    split
    · split
      · exact h.losePresent p h1
      · exact h.dropEntry p (h.postAny p _ _ id rfl rfl h1)
      · exact h.sendBoth _ (h.dropEntry p (h.postAny p _ _ id rfl rfl h1))
      · exact h1
    · exact h1

theorem retryMissed (p : PostId) (w : SentOrder) (hp : P s) : P (retryMissed p w s) := by
  unfold Machine.retryMissed; dsimp only; split
  · exact h.pollAny _ _ s (fun hd => Poll.enter_distinct _ _ hd) hp
  · exact hp

theorem advanceDiscovery (g : SegId) (a : Addr) (hf : (s.line g).feed = .discovery) (hp : P s) :
    P (advanceDiscovery g a s) := by
  unfold Machine.advanceDiscovery; split
  · exact h.pollKeep _ _ (fun _ => rfl) hp
  · exact h.moveFeed g _ _ (by decide) (by rw [hf]; decide) hp

theorem settleDiscovery (p : PostId) (b : Bool) (hp : P s) : P (settleDiscovery p b s) := by
  unfold Machine.settleDiscovery; split
  · rename_i hc
    simp only [Bool.and_eq_true, decide_eq_true_eq] at hc
    exact h.advanceDiscovery _ _ hc.1.1 hp
  · exact hp

theorem isolateAmong (g : SegId) (l : List Addr) (hf : (s.line g).feed = .isolating) (hp : P s) :
    P (isolateAmong g l s) := by
  unfold Machine.isolateAmong; split
  · exact h.pollKeep _ _ (fun _ => rfl) hp
  · exact h.moveFeed g _ _ (by decide) (by rw [hf]; decide) hp

theorem settleIsolation (p : PostId) (o : Order) (hp : P s) : P (settleIsolation p o s) := by
  unfold Machine.settleIsolation; split
  · rename_i hc
    simp only [Bool.and_eq_true, decide_eq_true_eq] at hc
    exact h.isolateAmong _ _ hc.1.1.1.1 hp
  · exact hp

theorem settleSweep (p : PostId) (o : Order) (b : Bool) (hp : P s) : P (settleSweep p o b s) :=
  h.settleIsolation p o (h.settleDiscovery p b hp)

theorem isolationStep (g : SegId) (x : IsolationStep) (hp : P s) : P (isolationStep g x s) :=
  h.pollKeep _ _ (fun _ => rfl) hp

theorem sweepOrder (g : SegId) (o : Order) (hp : P s) : P (sweepOrder g o s) := by
  unfold Machine.sweepOrder; split
  · exact h.sendOrder _ _ _ hp
  · exact hp

theorem isolationSlot (g : SegId) (hp : P s) : P (isolationSlot g s) := by
  unfold Machine.isolationSlot; dsimp only
  have h1 : P (modPoll g (fun q => { q with lastQueued := false }) s) := h.pollKeep _ _ (fun _ => rfl) hp
  split
  · exact h.isolationStep g _ (h.pollKeep _ _ (fun _ => rfl) h1)
  · exact h.isolationStep g _ (h.sweepOrder g _ h1)
  · exact h.sweepOrder g _ h1
  · exact h.isolationStep g _ (h.sweepOrder g _ h1)
  · exact h1
  · exact h1
  · exact h1
  · exact h1

theorem completePass (g : SegId) (hp : P s) : P (completePass g s) := by
  unfold Machine.completePass; dsimp only
  have h1 : P (modPoll g Poll.newPass s) := h.pollKeep _ _ (fun _ => rfl) hp
  split
  · exact h.pollKeep _ _ (fun _ => rfl) h1
  · split
    · exact h.pollKeep _ _ (fun _ => rfl) h1
    · exact h1

theorem routineActive (g : SegId) (hp : P s) : P (routineActive g s) := by
  unfold Machine.routineActive; split
  · exact hp
  · split
    · exact hp
    · rename_i before a _ _ after next _
      have h1 : P (modPoll g (fun q => { q with sweepPosition := next, covered := q.covered + before + 1 + after })
          (Machine.sendOrder ⟨g, a⟩ .status false s)) := h.pollKeep _ _ (fun _ => rfl) (h.sendOrder _ _ _ hp)
      dsimp only
      split
      · exact h.completePass g h1
      · exact h1

theorem routineSlot (g : SegId) (hp : P s) : P (routineSlot g s) := by
  unfold Machine.routineSlot; dsimp only
  have h1 : P (modPoll g (fun q => { q with lastQueued := false }) s) := h.pollKeep _ _ (fun _ => rfl) hp
  split
  · exact h.sendOrder _ _ _ h1
  · split
    · exact h.routineActive g h1
    · exact h1

theorem pollingSlot (g : SegId) (hp : P s) : P (pollingSlot g s) := by
  unfold Machine.pollingSlot; dsimp only
  split
  · rename_i e rest hq
    split
    · exact h.routineSlot g hp
    · unfold Machine.queueSlot
      refine h.sendOrder _ _ _ ?_
      refine h.pollAny g _ s (fun hd => ?_) hp
      unfold Poll.Distinct at *
      rw [hq, List.map_cons, List.nodup_cons] at hd
      exact hd.2
  · split
    · exact h.routineSlot g hp
    · exact h.pollKeep _ _ (fun _ => rfl) hp

theorem startCarrier (g : SegId) (hp : P s) : P (startCarrier g s) := h.line g _ s (fun _ => ⟨rfl, rfl⟩) hp

theorem setBattery (b : Bool) (hp : P s) : P (setBattery b s) := by
  unfold Machine.setBattery; dsimp only
  have h1 := h.battery b s hp
  split
  · exact h1
  · exact forEach_keeps (fun g _ hp => h.toNormal g hp) _ h1

theorem takeMiss (p : PostId) (w : SentOrder) (hp : P s) : P (takeMiss p w s) :=
  h.settleSweep p _ _ (h.retryMissed p w (h.countMiss p _ (h.pollKeep _ _ (fun _ => rfl) hp)))

theorem muteBabbler (p : PostId) (hp : P s) : P (muteBabbler p s) := by
  unfold Machine.muteBabbler; dsimp only
  have h1 : P (Machine.sendBoth (.babblerIsolated p (s.post p).lastSerial (s.post p).presence)
      (modPost p (Post.fallTo .muted) s)) := h.sendBoth _ (h.postAny p _ s id rfl rfl hp)
  split
  · refine h.postLineLoss p ?_
    have h2 := h.postAny p Post.dropLine _ id rfl rfl h1
    split
    · exact h.requestOrder p _ h2
    · exact h2
  · exact h1

end Firm

end Sys2Proof.Machine
end

