-- ==== Sys2Proof/Laws/FirmExec.lean ====
section
/-! SUPPORT. A property that every update keeps is kept by every row (`Firm.exec`) and by every step (`Firm.step`). -/

namespace Sys2Proof.Machine

open Sys2Proof

/-- The second level leaves every Line Unit alone. -/
theorem calm_line (g : SegId) (u : LineUnit) : Calm (fun s => s.line g = u) where
  link _ _ _ _ hp := hp
  path _ _ _ _ hp := by simpa using hp
  poll _ _ _ _ hp := by simpa using hp
  post _ _ _ _ hp := hp
  call _ _ _ _ hp := hp
  requests _ _ hp := hp
  offer _ _ hp := hp
  requeue _ _ hp := hp
  own _ _ _ _ _ hp := hp
  drain _ _ _ hp := hp
  load _ _ hp := hp
  abandoned _ _ _ hp := hp
  assign _ _ _ _ _ _ _ hp := hp
  assignHead _ _ _ _ _ _ _ _ _ hp := hp
  drop _ _ _ _ hp := hp
  join _ _ _ _ _ hp := hp
  pass _ _ _ _ hp := hp
  unlist _ _ hp := hp

theorem line_muteBabbler (p : PostId) (g : SegId) (s : State) : (muteBabbler p s).line g = s.line g := by
  have h := calm_line g (s.line g)
  unfold muteBabbler postLineLoss; dsimp only
  have h1 : (sendBoth (.babblerIsolated p (s.post p).lastSerial (s.post p).presence)
      (modPost p (Post.fallTo .muted) s)).line g = s.line g := h.sendBoth _ rfl
  split
  · refine h.pathLineLoss p (h.callLineLoss p ?_)
    split
    · exact h.requestOrder p _ h1
    · exact h1
  · exact h1

namespace Firm

variable {P : State → Prop} (h : Firm P) {s : State}
include h

/-! ### Commands on calls -/

omit h in
theorem callChecks_none {c : CallArg} {k : Option Nat} {own : CallNo → Call → List (Bool × RefusalCode)}
    (hc : callChecks c k own s = none) : ∃ n r, s.lookup c = some (n, r) ∧ firstRefusal (own n r) = none := by
  unfold callChecks at hc
  split at hc
  · cases hc
  · split at hc
    · cases hc
    · split at hc
      · cases hc
      · rename_i n r hl
        exact ⟨n, r, hl, hc⟩

omit h in
theorem lookup_respond (c : CallArg) (x : Link) (t : Tag) (k : CommandType) (r : Result) :
    (Machine.respond x t k r s).lookup c = s.lookup c := rfl

omit h in
theorem lookup_call {c : CallArg} {n : CallNo} {r : Call} (hl : s.lookup c = some (n, r)) : s.call n = some r := by
  unfold State.lookup at hl
  split at hl
  · cases hl
  · split at hl
    · cases hl
    · split at hl
      · rename_i hr _
        cases hl; exact hr
      · cases hl

theorem answer (x : Link) (t : Tag) (c : CallArg) (k : Nat) (hp : P s) : P (Machine.answer x t c k s) :=
  h.runAny x t _ _ _ (fun _ hp => onCallChannel c k (fun n r k _ _ hp => h.answerEffect x n r k hp) hp) hp

theorem decline (x : Link) (t : Tag) (c : CallArg) (hp : P s) : P (Machine.decline x t c s) :=
  h.runAny x t _ _ _ (fun _ hp => onCall c (fun n r _ _ hp => h.declineEffect x n r hp) hp) hp

theorem hold (x : Link) (t : Tag) (c : CallArg) (hp : P s) : P (Machine.hold x t c s) := by
  refine h.runCommand x t _ _ (fun s u hc hu hp => ?_) hp
  obtain ⟨n, r, hl, ho⟩ := callChecks_none hc
  have hl' : u.lookup c = some (n, r) := by rw [hu]; exact hl
  unfold Machine.onCall
  rw [hl']
  refine h.holdEffect n r (.inr ?_) (lookup_call hl') hp
  by_cases e : r.owner = some x
  · rw [e]; rfl
  · simp [firstRefusal, e] at ho

theorem retrieve (x : Link) (t : Tag) (c : CallArg) (hp : P s) : P (Machine.retrieve x t c s) := by
  refine h.runCommand x t _ _ (fun s u hc hu hp => ?_) hp
  obtain ⟨n, r, hl, ho⟩ := callChecks_none hc
  have hl' : u.lookup c = some (n, r) := by rw [hu]; exact hl
  unfold Machine.onCall
  rw [hl']
  refine h.retrieveEffect n r (.inr ?_) (lookup_call hl') hp
  by_cases e : r.owner = some x
  · rw [e]; rfl
  · simp [firstRefusal, e] at ho

theorem release (x : Link) (t : Tag) (c : CallArg) (hp : P s) : P (Machine.release x t c s) :=
  h.runAny x t _ _ _ (fun _ hp => onCall c (fun n r _ _ hp => h.releaseEffect x n r hp) hp) hp

theorem joinCommand (x : Link) (t : Tag) (c : CallArg) (k : Nat) (hp : P s) : P (Machine.join x t c k s) :=
  h.runAny x t _ _ _ (fun _ hp => onCallChannel c k (fun n r k _ _ hp => h.joinEffect n r k hp) hp) hp

theorem leave (x : Link) (t : Tag) (c : CallArg) (hp : P s) : P (Machine.leave x t c s) :=
  h.runAny x t _ _ _ (fun _ hp => onCall c (fun n r _ _ hp => h.leaveEffect x n r hp) hp) hp

theorem startPeriod (n : CallNo) (p : PostId) (b t : Nat) (hp : P s) : P (startPeriod n p b t s) := by
  unfold Machine.startPeriod; dsimp only
  split
  · exact h.requestOrder _ _ (h.callSame n _ (fun _ => rfl) hp)
  · exact h.callSame n _ (fun _ => rfl) hp

theorem callPostEffect (x : Link) (p : PostId) (k : ChanNo) (n : Nat) (hn : n ≤ 255) (ha : s.callAt p = none)
    (hq : (s.post p).pending = false) (hp : P s) : P (callPostEffect x p k n s) := by
  unfold Machine.callPostEffect; split
  · exact hp
  · rename_i m hf
    have h1 := h.assign m (s.newCallback x p k n) s hf ha hq ⟨rfl, hn, rfl⟩ hp
    exact h.evaluateLoad (h.startPeriod _ _ _ _ (h.tellCall _ (h.removeAbandoned _ (h.placeChannels _ h1))))

theorem callPost (x : Link) (t : Tag) (p : PostArg) (k : Nat) (n : Option Nat) (hp : P s) :
    P (Machine.callPost x t p k n s) := by
  refine h.runCommand x t _ _ (fun s u hc hu hp => ?_) hp
  unfold callPostChecks at hc
  split at hc
  · cases hc
  · split at hc
    · rename_i q j hq hj
      have ha : (s.post q).call = none ∧ (s.post q).pending = false := by
        cases h1 : (s.post q).call with
        | none =>
          cases h2 : (s.post q).pending with
          | false => exact ⟨rfl, rfl⟩
          | true =>
            simp only [h1, h2] at hc
            revert hc
            cases decide ((s.link x).mode ≠ .accepting) <;> cases !(s.line q.seg).feed.inService <;>
              cases decide ((s.post q).presence ≠ .present) <;> simp [firstRefusal]
        | some r =>
          simp only [h1] at hc
          revert hc
          cases decide ((s.link x).mode ≠ .accepting) <;> cases !(s.line q.seg).feed.inService <;>
            cases decide ((s.post q).presence ≠ .present) <;> simp [firstRefusal]
      have h1 : u.callAt q = none := by
        unfold State.callAt; rw [hu]
        show (match (s.post q).call with
          | none => none
          | some ref => _) = _
        rw [ha.1]
      have h2 : (u.post q).pending = false := by rw [hu]; exact ha.2
      exact h.callPostEffect x q _ _ (holdAt_le _ _) h1 h2 hp
    · cases hc
    · cases hc

theorem testPost (x : Link) (t : Tag) (p : PostArg) (hp : P s) : P (Machine.testPost x t p s) := by
  refine h.runAny x t _ _ _ (fun s hp => ?_) hp
  split
  · exact h.evaluateGrant _ (h.requests _ _ (h.path _ _ _ (fun _ => ⟨rfl, rfl⟩) hp))
  · exact hp

theorem keep (x : Link) (t : Tag) (k : CommandType) (check : State → Option RefusalCode) (reply : State → Reply)
    (hp : P s) : P (Machine.runCommand x t k check reply id s) := h.runAny x t k check reply (fun _ hp => hp) hp

/-! ### Commands on the tables -/

omit h in
theorem onPost {p : PostArg} {effect : PostId → State → State} (he : ∀ q s, P s → P (effect q s)) (hp : P s) :
    P (Machine.onPost p effect s) := by
  unfold Machine.onPost; split
  · exact hp
  · exact he _ _ hp

omit h in
theorem onSegment {g : Nat} {effect : SegId → State → State} (he : ∀ g s, P s → P (effect g s)) (hp : P s) :
    P (Machine.onSegment g effect s) := by
  unfold Machine.onSegment; split
  · exact hp
  · exact he _ _ hp

theorem storePost (x : Link) (c : Option PostConfig) (hl : ∀ y, c = some y → y.Legal) (p : PostId) (hp : P s) :
    P (storePost x c p s) :=
  h.countChange _ _ (h.resetLocation p (h.postConfig p c s (fun y hy => .inl (hl y hy)) hp))

theorem writePost (x : Link) (t : Tag) (e : Option Counter) (p : PostArg) (f : PostFields) (hp : P s) :
    P (Machine.writePost x t e p f s) :=
  h.runAny x t _ _ _ (fun _ hp => onPost (fun q _ hp => h.storePost x _ (fun _ hy => storedPost_legal hy) q hp) hp) hp

theorem clearPost (x : Link) (t : Tag) (e : Option Counter) (p : PostArg) (hp : P s) :
    P (Machine.clearPost x t e p s) :=
  h.runAny x t _ _ _ (fun _ hp => onPost (fun q _ hp => h.storePost x none (fun _ hy => nomatch hy) q hp) hp) hp

theorem storeSegment (x : Link) (c : SegmentConfig) (hl : c.Legal) (g : SegId) (hp : P s) : P (storeSegment x c g s) := by
  unfold Machine.storeSegment; dsimp only
  have h1 := h.segmentConfig g c s hl hp
  refine h.countChange _ _ (h.thresholdCrossings g _ _ ?_)
  split
  · exact h.postsAll g _ (fun _ => ⟨id, rfl, rfl⟩) h1
  · exact h1

theorem writeSegment (x : Link) (t : Tag) (e : Option Counter) (g : Nat) (f : SegmentFields) (hp : P s) :
    P (Machine.writeSegment x t e g f s) := by
  unfold Machine.writeSegment; split
  · exact h.runAny x t _ _ _ (fun _ hp => onSegment (fun g _ hp => h.storeSegment x _ (storedSegment_legal f _) g hp) hp) hp
  · exact h.keep x t _ _ _ hp

theorem feed (x : Link) (t : Tag) (g : Nat) (refused : FeedState → Bool) {effect : SegId → State → State}
    (he : ∀ g s, refused (s.line g).feed = false → P s → P (effect g s)) (hp : P s) :
    P (Machine.runCommand x t .feed (feedChecks g refused) (fun _ => .empty) (Machine.onSegment g effect) s) := by
  refine h.runCommand x t _ _ (fun s u hc hu hp => ?_) hp
  unfold feedChecks at hc
  unfold Machine.onSegment
  split
  · exact hp
  · rename_i k hk
    rw [hk] at hc
    refine he k u ?_ hp
    rw [hu]
    show refused (s.line k).feed = false
    cases hr : refused (s.line k).feed with
    | false => rfl
    | true =>
      dsimp only at hc
      rw [hr] at hc
      revert hc
      cases s.loading <;> simp [firstRefusal]

theorem feedOff (x : Link) (t : Tag) (g : Nat) (hp : P s) : P (Machine.feedOff x t g s) := by
  refine h.feed x t g _ (fun g s hf hp => ?_) hp
  unfold Machine.feedOffEffect; dsimp only
  have h1 := h.clearStartUp g hp
  split
  · exact h1
  · refine h.moveFeed g _ _ (by decide) ?_ h1
    unfold Machine.clearStartUp
    rw [line_modLine_self]
    simpa using hf

theorem feedOn (x : Link) (t : Tag) (g : Nat) (hp : P s) : P (Machine.feedOn x t g s) := by
  refine h.feed x t g _ (fun g s hf hp => ?_) hp
  unfold Machine.feedOnEffect; dsimp only
  have h1 := h.clearStartUp g hp
  split
  · exact h1
  · refine h.moveFeed g _ _ (by decide) ?_ h1
    unfold Machine.clearStartUp
    rw [line_modLine_self]
    simpa using hf

theorem feedReEnable (x : Link) (t : Tag) (g : Nat) (hp : P s) : P (Machine.feedReEnable x t g s) := by
  refine h.feed x t g _ (fun g s hf hp => ?_) hp
  unfold Machine.feedReEnableEffect
  exact h.changeFeed g _ _ (h.reEnable g _ s (by simpa using hf) hp)

theorem unmutePost (x : Link) (t : Tag) (p : PostArg) (hp : P s) : P (Machine.unmutePost x t p s) :=
  h.runAny x t _ _ _ (fun _ hp => onPost (fun _ _ hp => h.requestOrder _ _ hp) hp) hp

theorem writeWindow (x : Link) (t : Tag) (e : Option Counter) (w : Nat) (f : WindowFields) (hp : P s) :
    P (Machine.writeWindow x t e w f s) := by
  refine h.runAny x t _ _ _ (fun s hp => ?_) hp
  split
  · rename_i n v _ hv
    exact h.countChange _ _ (h.window n v s (storedWindow_legal hv) hp)
  · exact hp
  · exact hp

theorem writeClass (x : Link) (t : Tag) (e : Option Counter) (n : Nat) (f : ClassFields) (hp : P s) :
    P (Machine.writeClass x t e n f s) := by
  refine h.runAny x t _ _ _ (fun s hp => ?_) hp
  split
  · rename_i n v _ hv
    exact h.countChange _ _ (h.cls n v s (storedClass_legal hv) hp)
  · exact hp
  · exact hp

theorem writeDefaults (x : Link) (t : Tag) (e : Option Counter) (l : Coded Link) (w o : Nat) (hp : P s) :
    P (Machine.writeDefaults x t e l w o s) := by
  unfold Machine.writeDefaults; split
  · exact h.runAny x t _ _ _ (fun s hp => h.countChange _ _ (h.defaults _ s (storedDefaults_legal _ _ _) hp)) hp
  · exact h.keep x t _ _ _ hp

theorem applyLossTime (l : Link) (n : Nat) (hp : P s) : P (applyLossTime l n s) := by
  unfold Machine.applyLossTime; split
  · exact hp
  · dsimp only; split
    · exact h.linkGoesDown l hp
    · exact h.linkAny l _ s (fun _ => ⟨rfl, id⟩) hp

theorem writeLink (x : Link) (t : Tag) (e : Option Counter) (l : Coded Link) (d m : Nat) (hp : P s) :
    P (Machine.writeLink x t e l d m s) := by
  unfold Machine.writeLink; split
  · exact h.runAny x t _ _ _ (fun s hp => h.countChange _ _ (h.applyLossTime _ _ (h.fillBoth (h.withdrawToDepth _ _
      (h.links _ _ s (storedLink_legal _ _) hp))))) hp
  · exact h.keep x t _ _ _ hp

/-! ### Received blocks -/

theorem readStatus (x : Link) (t : Tag) (hp : P s) : P (Machine.readStatus x t s) :=
  h.runAny x t _ _ _ (fun s hp => h.linkAny _ _ s (fun _ => ⟨rfl, id⟩) hp) hp

theorem setTime (x : Link) (t : Tag) (v : Seconds) (hp : P s) : P (Machine.setTime x t v s) :=
  h.runAny x t _ _ _ (fun s hp => h.clock _ s hp) hp

theorem listCalls (x : Link) (t : Tag) (hp : P s) : P (Machine.listCalls x t s) :=
  h.keep x t _ _ _ hp

theorem readCall (x : Link) (t : Tag) (c : CallArg) (hp : P s) : P (Machine.readCall x t c s) :=
  h.keep x t _ _ _ hp

theorem listAbandoned (x : Link) (t : Tag) (hp : P s) : P (Machine.listAbandoned x t s) :=
  h.keep x t _ _ _ hp

theorem listPending (x : Link) (t : Tag) (hp : P s) : P (Machine.listPending x t s) :=
  h.keep x t _ _ _ hp

theorem handoverFinish (x : Link) (t : Tag) (hp : P s) : P (Machine.handoverFinish x t s) :=
  h.handover x t (fun _ ho hp => h.finishEffect x ho hp) hp

theorem handoverImmediate (x : Link) (t : Tag) (hp : P s) : P (Machine.handoverImmediate x t s) :=
  h.handover x t (fun _ ho hp => h.immediateEffect x ho hp) hp

theorem resume (x : Link) (t : Tag) (hp : P s) : P (Machine.resume x t s) :=
  h.runAny x t _ _ _ (fun _ hp => h.resumeEffect x hp) hp

theorem readPost (x : Link) (t : Tag) (p : PostArg) (hp : P s) : P (Machine.readPost x t p s) :=
  h.keep x t _ _ _ hp

theorem readSegment (x : Link) (t : Tag) (g : Nat) (hp : P s) : P (Machine.readSegment x t g s) :=
  h.keep x t _ _ _ hp

theorem readWindow (x : Link) (t : Tag) (w : Nat) (hp : P s) : P (Machine.readWindow x t w s) :=
  h.keep x t _ _ _ hp

theorem readClass (x : Link) (t : Tag) (e : Nat) (hp : P s) : P (Machine.readClass x t e s) :=
  h.keep x t _ _ _ hp

theorem lockStructure (x : Link) (t : Tag) (hp : P s) : P (Machine.lockStructure x t s) :=
  h.runAny x t _ _ _ (fun s hp => h.lock s hp) hp

theorem saveImage (x : Link) (t : Tag) (hp : P s) : P (Machine.saveImage x t s) :=
  h.runAny x t _ _ _ (fun s hp => h.save s hp) hp

theorem unknownCommand (x : Link) (t : Tag) (hp : P s) : P (Machine.unknownCommand x t s) := by
  unfold Machine.unknownCommand Machine.refuseCommand; exact h.keep x t _ _ _ hp

theorem takeCommand (i : Instr) (hp : P s) : P (takeCommand i s) := by
  cases i with
  | readStatus x t => exact h.readStatus x t hp
  | setTime x t v => exact h.setTime x t v hp
  | listCalls x t => exact h.listCalls x t hp
  | readCall x t c => exact h.readCall x t c hp
  | listAbandoned x t => exact h.listAbandoned x t hp
  | listPending x t => exact h.listPending x t hp
  | answer x t c k => exact h.answer x t c k hp
  | decline x t c => exact h.decline x t c hp
  | hold x t c => exact h.hold x t c hp
  | retrieve x t c => exact h.retrieve x t c hp
  | release x t c => exact h.release x t c hp
  | join x t c k => exact h.joinCommand x t c k hp
  | leave x t c => exact h.leave x t c hp
  | callPost x t p k n => exact h.callPost x t p k n hp
  | testPost x t p => exact h.testPost x t p hp
  | handoverFinish x t => exact h.handoverFinish x t hp
  | handoverImmediate x t => exact h.handoverImmediate x t hp
  | resume x t => exact h.resume x t hp
  | readPost x t p => exact h.readPost x t p hp
  | writePost x t e p f => exact h.writePost x t e p f hp
  | clearPost x t e p => exact h.clearPost x t e p hp
  | readSegment x t g => exact h.readSegment x t g hp
  | writeSegment x t e g f => exact h.writeSegment x t e g f hp
  | feedOff x t g => exact h.feedOff x t g hp
  | feedOn x t g => exact h.feedOn x t g hp
  | feedReEnable x t g => exact h.feedReEnable x t g hp
  | unmutePost x t p => exact h.unmutePost x t p hp
  | readWindow x t w => exact h.readWindow x t w hp
  | writeWindow x t e w f => exact h.writeWindow x t e w f hp
  | readClass x t e => exact h.readClass x t e hp
  | writeClass x t e n f => exact h.writeClass x t e n f hp
  | writeDefaults x t e l w o => exact h.writeDefaults x t e l w o hp
  | writeLink x t e l d m => exact h.writeLink x t e l d m hp
  | lockStructure x t => exact h.lockStructure x t hp
  | saveImage x t => exact h.saveImage x t hp
  | unknownCommand x t => exact h.unknownCommand x t hp
  | _ => exact hp

theorem takeBlock (l : Link) (b : RxBlock) (hp : P s) : P (takeBlock l b s) := by
  unfold Machine.takeBlock; split
  · exact h.takeCommand _ hp
  · exact h.keep _ _ _ _ _ hp
  · exact h.keep _ _ _ _ _ hp
  · exact h.keep _ _ _ _ _ hp

theorem receiveByte (l : Link) (b : Byte) (hp : P s) : P (receiveByte l b s) :=
  forEach_keeps (fun b _ hp => h.takeBlock l b hp) _ (h.linkAny l _ s (fun _ => ⟨rfl, id⟩) hp)

theorem badBlock (l : Link) (bytes : List Byte) (hp : P s) : P (badBlock l bytes s) :=
  outside _ (fun hp => forEach_keeps (fun b _ hp => h.receiveByte l b hp) _ hp) hp

theorem afterByte (l : Link) (f : LinkRec → LinkRec) (hf : ∀ r, (f r).mode = r.mode ∧ (f r).transfers = r.transfers)
    (hp : P s) : P (modLink l f s) := h.linkAny l f s (fun r => ⟨(hf r).1, fun hr => by rw [(hf r).2]; exact hr⟩) hp

theorem speakPorts (l : Link) (hp : P s) : P (speakPorts l s) := by
  unfold Machine.speakPorts; split
  · exact forEach_keeps (fun g s hp => h.pathAny g _ s hp) _ (h.frames _ s hp)
  · exact h.frames _ s hp

theorem linkFrame (l : Link) (samples : Vector Sample 4) (b : Byte) (lineIn : Vector Sample 8) (hp : P s) :
    P (linkFrame l samples b lineIn s) := by
  refine outside _ (fun hp => h.receiveByte l b ?_) hp
  have h1 : P (hearFrame l samples lineIn s) :=
    forEach_keeps (fun g s hp => h.pathAny g _ s hp) _ (h.linkAny l _ s (fun _ => ⟨rfl, id⟩) hp)
  unfold speakFrame; dsimp only
  have hb : ∀ r : LinkRec, r.afterByte.mode = r.mode ∧ r.afterByte.transfers = r.transfers := by
    intro r; unfold LinkRec.afterByte; split
    · exact ⟨rfl, rfl⟩
    · split <;> exact ⟨rfl, rfl⟩
  exact h.afterByte _ _ hb (h.speakPorts l h1)

theorem startedSent (l : Link) (hp : P s) : P (startedSent l s) := by
  refine outside _ (fun hp => ?_) hp
  split
  · exact hp
  · exact h.linkAny l _ s (fun _ => ⟨rfl, id⟩) hp

/-! ### Polling and reports -/

theorem judgeListen (g : SegId) (c : Bool) (hf : (s.line g).feed = .isolating) (hp : P s) : P (judgeListen g c s) := by
  unfold Machine.judgeListen
  have hr : ∀ t, ((Machine.reach t s).line g).feed = .isolating := fun _ => hf
  have hpw : ∀ t, ((Machine.reach t s).line g).feed.powered = true := fun t => by rw [hr t]; rfl
  split
  · split
    · exact h.trips g _ (hpw _) (h.reach _ hp)
    · exact h.isolateAmong g _ (hr _) (h.reach _ hp)
  · exact h.isolationStep g _ (h.reach _ hp)
  · split
    · exact h.trips g _ (hpw _) (h.reach _ hp)
    · split
      · rename_i a _
        refine h.isolateAmong g _ ?_ (h.muteBabbler _ (h.reach _ hp))
        rw [line_muteBabbler]; exact hr _
      · exact hp
  all_goals exact hp

theorem isolationListenEnd (g : SegId) (c : Bool) (hp : P s) : P (isolationListenEnd g c s) := by
  refine outside _ (fun hp => ?_) hp
  split
  · rename_i hf; exact h.judgeListen g c hf hp
  · exact hp

theorem pollSlot (g : SegId) (c b : Bool) (hp : P s) : P (pollSlot g c b s) := by
  refine outside _ (fun hp => ?_) hp
  have h1 : P (modPoll g (fun q => { q with burst := [] }) (Machine.setBattery b s)) :=
    h.pollKeep _ _ (fun _ => rfl) (h.setBattery b hp)
  dsimp only
  split
  · exact h1
  · split
    · split
      · exact h.startCarrier g h1
      · exact h.pollingSlot g h1
    · split
      · exact h.isolationSlot g h1
      · exact h1

theorem responseWindowClose (g : SegId) (c : Bool) (hp : P s) : P (responseWindowClose g c s) := by
  refine outside _ (fun hp => ?_) hp
  split
  · exact hp
  · rename_i w _
    have h1 := h.takeMiss ⟨g, w.addr⟩ w hp
    dsimp only
    split
    · exact h.startCarrier g h1
    · exact h1

theorem carrierStart (g : SegId) (hp : P s) : P (carrierStart g s) := by
  refine outside _ (fun hp => ?_) hp
  split
  · exact h.startCarrier g hp
  · exact hp

theorem attentionBurst (g : SegId) (hp : P s) : P (attentionBurst g s) := by
  refine outside _ (fun hp => ?_) hp
  have h1 : P (stopCarrier g s) := h.line g _ s (fun _ => ⟨rfl, rfl⟩) hp
  dsimp only
  split
  · exact h.pollAny g _ _ (fun hd => Poll.toNormal_distinct hd) h1
  · exact h1

omit h in
theorem timesCarrier_ne {f : FeedState} (hf : f.timesCarrier = true) : f ≠ .locked := by rintro rfl; cases hf

theorem babble (g : SegId) (hp : P s) : P (babble g s) := by
  refine outside _ (fun hp => ?_) hp
  split
  · rename_i hf
    refine h.moveFeed g _ _ (by decide) ?_ (h.reachTimer _ hp)
    have : ∀ t, ((Machine.reachTimer t s).line g) = s.line g := by
      intro t; unfold Machine.reachTimer; split <;> rfl
    rw [this]
    exact timesCarrier_ne hf
  · exact hp

theorem economyPassStart (g : SegId) (hp : P s) : P (economyPassStart g s) := by
  refine outside _ (fun hp => ?_) hp
  split
  · exact h.pollKeep g _ (fun _ => rfl) (h.reach _ hp)
  · exact hp
  · exact hp

theorem reportHook (p : PostId) (r : Report) (c : ClassResult) (hp : P s) : P (reportHook p r c s) := by
  unfold Machine.reportHook; dsimp only
  have h1 := h.postAny p (Post.storeHook r.offHook) s id rfl rfl hp
  split
  · exact h1
  · split
    · split
      · exact h1
      · exact h.offHook p c h1
    · exact h.onHook p h1

theorem reportReturn (p : PostId) (b : Bool) (r : Report) (c : ClassResult) (hp : P s) : P (reportReturn p b r c s) := by
  unfold Machine.reportReturn; split
  · exact h.lineReturn p _ (h.postAny p (Post.storeHook r.offHook) s id rfl rfl hp)
  · exact h.reportHook p r c hp

theorem reportLine (p : PostId) (r : Report) (hp : P s) : P (reportLine p r s) := by
  unfold Machine.reportLine; dsimp only
  have h1 : P (modPost p (fun q => { q with
      missed := 0, lastSerial := some r.serial, lastFormat := some r.format, presence := .present }) s) :=
    h.postAny p _ s (fun hr => ⟨Nat.zero_le _, hr.2⟩) rfl rfl hp
  split
  · exact h.sendBoth _ h1
  · exact h1

theorem reportAnswer (p : PostId) (o : Order) (hp : P s) : P (reportAnswer p o s) := by
  unfold Machine.reportAnswer; dsimp only
  split
  · exact h.selectAnswered p _ hp
  · split
    · exact hp
    · exact h.postAny p _ s id rfl rfl hp
  · exact h.echoAnswered p _ hp
  all_goals exact hp

theorem acceptReport (p : PostId) (o : Order) (d : Nat) (r : Report) (hp : P s) : P (acceptReport p o d r s) := by
  unfold Machine.acceptReport; dsimp only
  exact h.settleSweep p o true (h.pollKeep _ _ (fun _ => rfl) (h.reportAnswer p o (h.reportReturn p _ r _
    (h.classifyReport p _ _ (h.locateReport p d _ (h.reportLine p r hp))))))

theorem report (g : SegId) (d : Nat) (bytes : List Byte) (hp : P s) : P (report g d bytes s) := by
  refine outside _ (fun hp => ?_) hp
  split
  · exact hp
  · split
    · split
      · exact h.acceptReport _ _ _ _ hp
      · exact hp
    · exact hp

/-! ### The Line Unit's rows -/

theorem feedVoltageFall (g : SegId) (v : Nat) (o : Bool) (hp : P s) : P (feedVoltageFall g v o s) := by
  refine outside _ (fun hp => ?_) hp
  have h1 := h.sampleFeed g v o hp
  dsimp only; split
  · exact h.voltageFalls g h1
  · exact h1

theorem feedVoltageAboveTurnOff (g : SegId) (v : Nat) (o : Bool) (hp : P s) : P (feedVoltageAboveTurnOff g v o s) := by
  refine outside _ (fun hp => ?_) hp
  have h1 := h.sampleFeed g v o hp
  dsimp only; split
  · exact h.voltageReturns g h1
  · exact h1

theorem feedVoltageAboveTurnOn (g : SegId) (v : Nat) (o : Bool) (hp : P s) : P (feedVoltageAboveTurnOn g v o s) := by
  refine outside _ (fun hp => ?_) hp
  have h1 := h.sampleFeed g v o hp
  dsimp only; split
  · exact h.voltageRises g (h.voltageReturns g h1)
  · exact h1

theorem overCurrent (g : SegId) (v : Nat) (hp : P s) : P (overCurrent g v s) := by
  refine outside _ (fun hp => ?_) hp
  have h1 := h.sampleFeed g v true hp
  dsimp only; split
  · rename_i hf
    exact h.trips g _ hf h1
  · exact h1

theorem underVoltageFilterExpiry (g : SegId) (hp : P s) : P (underVoltageFilterExpiry g s) := by
  refine outside _ (fun hp => ?_) hp
  split
  · exact hp
  · split
    · rename_i hf
      exact h.moveFeed g _ _ (by decide) (inService_ne hf) (h.reach _ hp)
    · exact hp

theorem rePowerTimerExpiry (g : SegId) (hp : P s) : P (rePowerTimerExpiry g s) := by
  refine outside _ (fun hp => ?_) hp
  split
  · exact hp
  · split
    · rename_i hf
      refine h.moveFeed g _ _ (by decide) ?_ (h.reach _ hp)
      show (s.line g).feed ≠ _
      rw [hf]; decide
    · exact hp

theorem tripRetryExpiry (g : SegId) (hp : P s) : P (tripRetryExpiry g s) := by
  refine outside _ (fun hp => ?_) hp
  split
  · exact hp
  · split
    · rename_i hf
      refine h.moveFeed g _ _ (by decide) ?_ (h.reach _ hp)
      show (s.line g).feed ≠ _
      rw [hf]; decide
    · exact hp

theorem startUpSwitchOn (g : SegId) (hp : P s) : P (startUpSwitchOn g s) := by
  refine outside _ (fun hp => ?_) hp
  split
  · have h1 : P (modLine g (fun u => { u with startUp := false, startUpAt := none })
        (Machine.reachTimer (s.line g).startUpAt s)) := h.line g _ _ (fun _ => ⟨rfl, rfl⟩) (h.reachTimer _ hp)
    dsimp only; split
    · rename_i hf
      exact h.moveFeed g _ _ (by decide) (by rw [hf]; decide) h1
    · exact h1
  · exact hp

/-! ### Timers -/

theorem ageingStep (n : CallNo) (hp : P s) : P (ageingStep n s) := by
  refine outside _ (fun hp => ?_) hp
  split
  · exact hp
  · split
    · exact hp
    · split
      · exact h.callAny n _ _ (fun _ => ⟨rfl, rfl, rfl, rfl, fun _ => holdAt_le _ _⟩) (h.reach _ hp)
      · exact hp

theorem overflowTimerExpiry (n : CallNo) (hp : P s) : P (overflowTimerExpiry n s) := by
  refine outside _ (fun hp => ?_) hp
  split
  · exact hp
  · split
    · exact hp
    · split
      · exact h.fillBoth (h.openCall n (h.reach _ hp))
      · exact hp

theorem ringPeriodStart (n : CallNo) (hp : P s) : P (ringPeriodStart n s) := by
  refine outside _ (fun hp => ?_) hp
  split
  · exact hp
  · split
    · exact hp
    · split
      · exact h.startPeriod _ _ _ _ (h.reach _ hp)
      · exact hp

theorem ringOnTimeEnd (n : CallNo) (hp : P s) : P (ringOnTimeEnd n s) := by
  refine outside _ (fun hp => ?_) hp
  split
  · exact hp
  · split
    · exact hp
    · split
      · exact h.requestOrder _ _ (h.callSame n _ (fun _ => rfl) (h.reach _ hp))
      · exact hp

theorem endUnanswered (n : CallNo) (c : Call) : Calm.Ending P (endUnanswered n c) :=
  fun _ hp => ⟨h.sendBoth _ hp, Calm.sendBoth_calls _⟩

theorem ringDeadline (n : CallNo) (hp : P s) : P (ringDeadline n s) := by
  refine outside _ (fun hp => ?_) hp
  split
  · exact hp
  · split
    · exact hp
    · split
      · exact h.endCall n (h.endUnanswered n _) (h.reach _ hp)
      · exact hp

theorem testComparisonEnd (g : SegId) (r : Option (List Bool)) (hp : P s) : P (testComparisonEnd g r s) := by
  refine outside _ (fun hp => ?_) hp
  split
  · exact hp
  · split
    · exact h.sendBoth _ (h.evaluateGrant g (h.path g _ _ (fun _ => ⟨rfl, rfl⟩) (h.requestOrder _ _ hp)))
    · exact hp

/-! ### Image, supply and clock -/

theorem imageWritten (hp : P s) : P (imageWritten s) := by
  refine outside _ (fun hp => ?_) hp
  split
  · exact hp
  · rename_i v hv
    split
    · exact hp
    · exact h.written v s hv hp

theorem saveReadBackEnd (b : Bool) (hp : P s) : P (saveReadBackEnd b s) := by
  refine outside _ (fun hp => ?_) hp
  split
  · exact hp
  · split
    · exact hp
    · exact h.sendBoth _ (h.failed _ _ (h.saved _ s hp))

theorem beginStartUp (hp : P s) : P (beginStartUp s) :=
  forEach_keeps (fun x s hp => h.line x.1 (fun u => { u with
    startUp := true, startUpAt := some (s.timebase + startUpSpacing * x.2) }) s (fun _ => ⟨rfl, rfl⟩) hp) _ hp

theorem endLoading (t : Tables) (r : Counter) (i : ImageState) (ht : t = s.memory.tables ∨ t = Tables.withoutImage)
    (hs : s.supply.phase = .loading) (hp : P s) : P (endLoading t r i s) :=
  h.sendStartedIfDue .b (h.sendStartedIfDue .a (h.beginStartUp (h.loaded t r i s ht hs hp)))

omit h in
theorem loading_phase (hl : s.loading = true) : s.supply.phase = .loading := by simpa [State.loading] using hl

theorem imageLoadEnd (b : Bool) (hp : P s) : P (imageLoadEnd b s) := by
  unfold Machine.imageLoadEnd; split
  · rename_i hl
    split
    · exact h.endLoading _ _ _ (.inl rfl) (loading_phase hl) hp
    · exact h.endLoading _ _ _ (.inr rfl) (loading_phase hl) (h.failed _ s hp)
  · exact hp

theorem loadTimeout (hp : P s) : P (loadTimeout s) := by
  unfold Machine.loadTimeout; split
  · rename_i hl
    refine h.endLoading _ _ _ (.inr rfl) ?_ (h.failed _ _ (h.reachTimer _ hp))
    have : ∀ t, (Machine.reachTimer t s).supply = s.supply := by
      intro t; unfold Machine.reachTimer; split <;> rfl
    show (Machine.reachTimer _ s).supply.phase = _
    rw [this]; exact loading_phase hl
  · exact hp

theorem timeClockTick (hp : P s) : P (timeClockTick s) := by
  unfold Machine.timeClockTick; split
  · exact h.clock _ _ (h.reach _ hp)
  · exact hp

/-! ### Every row and every step -/

theorem exec (i : Instr) {t : State} (he : Machine.exec i s = .next t) (hp : P s) : P t := by
  cases i <;> simp only [Machine.exec] at he
  case badBlock l b => cases he; exact h.badBlock l b hp
  case linkFrame l x b y => cases he; exact h.linkFrame l x b y hp
  case startedSent l => cases he; exact h.startedSent l hp
  case linkLossExpiry l => cases he; exact h.linkLossExpiry l hp
  case feedVoltageFall g v o => cases he; exact h.feedVoltageFall g v o hp
  case feedVoltageAboveTurnOff g v o => cases he; exact h.feedVoltageAboveTurnOff g v o hp
  case feedVoltageAboveTurnOn g v o => cases he; exact h.feedVoltageAboveTurnOn g v o hp
  case overCurrent g v => cases he; exact h.overCurrent g v hp
  case underVoltageFilterExpiry g => cases he; exact h.underVoltageFilterExpiry g hp
  case rePowerTimerExpiry g => cases he; exact h.rePowerTimerExpiry g hp
  case tripRetryExpiry g => cases he; exact h.tripRetryExpiry g hp
  case startUpSwitchOn g => cases he; exact h.startUpSwitchOn g hp
  case pollSlot g c b => cases he; exact h.pollSlot g c b hp
  case report g d b => cases he; exact h.report g d b hp
  case responseWindowClose g c => cases he; exact h.responseWindowClose g c hp
  case carrierStart g => cases he; exact h.carrierStart g hp
  case attentionBurst g => cases he; exact h.attentionBurst g hp
  case babble g => cases he; exact h.babble g hp
  case isolationListenEnd g c => cases he; exact h.isolationListenEnd g c hp
  case economyPassStart g => cases he; exact h.economyPassStart g hp
  case onBatteryDeassert => cases he; exact outside _ (fun hp => h.setBattery false hp) hp
  case ageingStep n => cases he; exact h.ageingStep n hp
  case overflowTimerExpiry n => cases he; exact h.overflowTimerExpiry n hp
  case ringPeriodStart n => cases he; exact h.ringPeriodStart n hp
  case ringOnTimeEnd n => cases he; exact h.ringOnTimeEnd n hp
  case ringDeadline n => cases he; exact h.ringDeadline n hp
  case testComparisonEnd g r => cases he; exact h.testComparisonEnd g r hp
  case imageWritten => cases he; exact h.imageWritten hp
  case saveReadBackEnd b => cases he; exact h.saveReadBackEnd b hp
  case imageLoadEnd b => cases he; exact h.imageLoadEnd b hp
  case loadTimeout => cases he; exact h.loadTimeout hp
  case powerOn => cases he; exact h.powerOn s hp
  case supplySenseLow => cases he; exact h.senseLow s hp
  case supplySenseGood => cases he; exact h.senseGood s hp
  case holdOffExpiry => cases he; exact h.holdOff s hp
  case resetPinAssert => cases he; exact h.pinLow s hp
  case resetPinRelease => cases he; exact h.pinHigh s hp
  case timeClockTick => cases he; exact h.timeClockTick hp
  case readStatus x t => cases he; exact h.readStatus x t hp
  case setTime x t v => cases he; exact h.setTime x t v hp
  case listCalls x t => cases he; exact h.listCalls x t hp
  case readCall x t c => cases he; exact h.readCall x t c hp
  case listAbandoned x t => cases he; exact h.listAbandoned x t hp
  case listPending x t => cases he; exact h.listPending x t hp
  case answer x t c k => cases he; exact h.answer x t c k hp
  case decline x t c => cases he; exact h.decline x t c hp
  case hold x t c => cases he; exact h.hold x t c hp
  case retrieve x t c => cases he; exact h.retrieve x t c hp
  case release x t c => cases he; exact h.release x t c hp
  case join x t c k => cases he; exact h.joinCommand x t c k hp
  case leave x t c => cases he; exact h.leave x t c hp
  case callPost x t p k n => cases he; exact h.callPost x t p k n hp
  case testPost x t p => cases he; exact h.testPost x t p hp
  case handoverFinish x t => cases he; exact h.handoverFinish x t hp
  case handoverImmediate x t => cases he; exact h.handoverImmediate x t hp
  case resume x t => cases he; exact h.resume x t hp
  case readPost x t p => cases he; exact h.readPost x t p hp
  case writePost x t e p f => cases he; exact h.writePost x t e p f hp
  case clearPost x t e p => cases he; exact h.clearPost x t e p hp
  case readSegment x t g => cases he; exact h.readSegment x t g hp
  case writeSegment x t e g f => cases he; exact h.writeSegment x t e g f hp
  case feedOff x t g => cases he; exact h.feedOff x t g hp
  case feedOn x t g => cases he; exact h.feedOn x t g hp
  case feedReEnable x t g => cases he; exact h.feedReEnable x t g hp
  case unmutePost x t p => cases he; exact h.unmutePost x t p hp
  case readWindow x t w => cases he; exact h.readWindow x t w hp
  case writeWindow x t e w f => cases he; exact h.writeWindow x t e w f hp
  case readClass x t e => cases he; exact h.readClass x t e hp
  case writeClass x t e n f => cases he; exact h.writeClass x t e n f hp
  case writeDefaults x t e l w o => cases he; exact h.writeDefaults x t e l w o hp
  case writeLink x t e l d m => cases he; exact h.writeLink x t e l d m hp
  case lockStructure x t => cases he; exact h.lockStructure x t hp
  case saveImage x t => cases he; exact h.saveImage x t hp
  case unknownCommand x t => cases he; exact h.unknownCommand x t hp

theorem step (hq : ∀ (l : List Instr) s, P s → P { s with pending := l }) {t : State} (he : Machine.step s = .next t)
    (hp : P s) : P t := by
  unfold Machine.step at he
  split at he
  · cases he; exact h.time _ s hp
  · exact h.exec _ he (hq _ s hp)

end Firm

end Sys2Proof.Machine
end

