-- ==== Sys2Proof/Laws/Frame.lean ====
section
/-! SUPPORT. The frame of the second level: what calls, offers, paths and orders leave alone (`CallFrame`). -/

namespace Sys2Proof.Machine

open Sys2Proof

theorem LinkKept.refl (r : LinkRec) : LinkKept r r := ⟨rfl, rfl, rfl, rfl, rfl, rfl, rfl, rfl, List.prefix_rfl, fun _ => .inl rfl⟩

theorem LinkKept.trans {p q r : LinkRec} (h : LinkKept p q) (k : LinkKept q r) : LinkKept p r :=
  ⟨k.1.trans h.1, k.2.trans h.2, k.3.trans h.3, k.4.trans h.4, k.5.trans h.5, k.6.trans h.6, k.7.trans h.7,
   k.8.trans h.8, h.9.trans k.9,
   fun c => (k.10 c).elim (fun e => (h.10 c).elim (fun d => .inl (e.trans d)) (fun d => .inr (e.trans d))) .inr⟩

theorem PostKept.refl (r : Post) : PostKept r r := ⟨rfl, rfl, rfl, rfl, rfl, rfl, rfl, rfl, rfl, rfl, rfl⟩

theorem PostKept.trans {p q r : Post} (h : PostKept p q) (k : PostKept q r) : PostKept p r :=
  ⟨k.1.trans h.1, k.2.trans h.2, k.3.trans h.3, k.4.trans h.4, k.5.trans h.5, k.6.trans h.6, k.7.trans h.7,
   k.8.trans h.8, k.9.trans h.9, k.10.trans h.10, k.11.trans h.11⟩

theorem CallFrame.refl (s : State) : CallFrame s s where
  supply := rfl
  timebase := rfl
  clock := rfl
  manager := rfl
  tables := rfl
  memory := rfl
  loadFailed := rfl
  onBattery := rfl
  framed := rfl
  pending := rfl
  line _ := rfl
  link _ := .refl _
  mode _ := .inl rfl
  post _ := .refl _
  poll _ := .refl _
  speech _ := ⟨rfl, rfl⟩

theorem CallFrame.trans {s t u : State} (h : CallFrame s t) (k : CallFrame t u) : CallFrame s u where
  supply := k.supply.trans h.supply
  timebase := k.timebase.trans h.timebase
  clock := k.clock.trans h.clock
  manager := k.manager.trans h.manager
  tables := k.tables.trans h.tables
  memory := k.memory.trans h.memory
  loadFailed := k.loadFailed.trans h.loadFailed
  onBattery := k.onBattery.trans h.onBattery
  framed := k.framed.trans h.framed
  pending := k.pending.trans h.pending
  line g := (k.line g).trans (h.line g)
  link l := (h.link l).trans (k.link l)
  mode l := by
    rcases h.mode l with a | ⟨a, b⟩ <;> rcases k.mode l with c | ⟨c, d⟩
    · exact .inl (c.trans a)
    · exact .inr ⟨a ▸ c, d⟩
    · exact .inr ⟨a, c.trans b⟩
    · exact .inr ⟨a, d⟩
  post p := (h.post p).trans (k.post p)
  poll g := (h.poll g).trans (k.poll g)
  speech g := ⟨(k.speech g).1.trans (h.speech g).1, (k.speech g).2.trans (h.speech g).2⟩

/-- A change of one link record that keeps what the frame keeps. -/
theorem callFrame_modLink {l : Link} {f : LinkRec → LinkRec} {s : State} (hf : LinkKept (s.link l) (f (s.link l)))
    (hm : ModeKept (s.link l) (f (s.link l))) : CallFrame s (modLink l f s) :=
  { CallFrame.refl s with
    link := fun k => by
      rw [link_modLink]; split
      · rename_i e; subst e; exact hf
      · exact .refl _
    mode := fun k => by
      rw [link_modLink]; split
      · rename_i e; subst e; exact hm
      · exact .inl rfl }

/-- A change of one post record that keeps what the frame keeps. -/
theorem callFrame_modPost {p : PostId} {f : Post → Post} {s : State} (hf : PostKept (s.post p) (f (s.post p))) :
    CallFrame s (modPost p f s) :=
  { CallFrame.refl s with
    post := fun q => by
      rw [post_modPost]; split
      · rename_i e; subst e; exact hf
      · exact .refl _ }

theorem callFrame_modCall (n : CallNo) (f : Call → Call) (s : State) : CallFrame s (modCall n f s) :=
  { CallFrame.refl s with }

/-- The second level keeps the frame. -/
theorem calm_callFrame (s₀ : State) : Calm (CallFrame s₀) where
  link l f s hf hp := hp.trans (callFrame_modLink (hf _).1 (.inl (hf _).2.1))
  path g f s hf hp := hp.trans { CallFrame.refl s with
    line := fun k => by simp
    poll := fun k => by rw [poll_modPath]; exact .refl _
    speech := fun k => by
      rw [path_modPath]; split
      · exact hf _
      · exact ⟨rfl, rfl⟩ }
  poll g f s hf hp := hp.trans { CallFrame.refl s with
    line := fun k => by simp
    poll := fun k => by
      rw [poll_modPoll]; split
      · exact (hf _).1
      · exact .refl _
    speech := fun k => by simp }
  post p f s hf hp := hp.trans (callFrame_modPost (hf _).1)
  call n f s _ hp := hp.trans (callFrame_modCall n f s)
  requests l s hp := hp.trans { CallFrame.refl s with }
  offer n s hp := hp.trans (callFrame_modCall n _ s)
  requeue n s hp := hp.trans (callFrame_modCall n _ s)
  own n st s _ _ hp := hp.trans (callFrame_modCall n _ s)
  drain l s hd hp := hp.trans (callFrame_modLink ⟨rfl, rfl, rfl, rfl, rfl, rfl, rfl, rfl, List.prefix_rfl, fun _ => .inl rfl⟩
    (.inr ⟨hd, rfl⟩))
  load b s hp := hp.trans { CallFrame.refl s with }
  abandoned l s _ hp := hp.trans { CallFrame.refl s with }
  assign n c s _ _ _ _ hp := hp.trans ((show CallFrame s { s with
      calls := s.calls.set n (some c), created := s.created ++ [n], nextSequence := s.nextSequence + 1 } from
    { CallFrame.refl s with }).trans (callFrame_modPost ⟨rfl, rfl, rfl, rfl, rfl, rfl, rfl, rfl, rfl, rfl, rfl⟩))
  assignHead e rest n c s _ _ _ _ hp := hp.trans ((show CallFrame s { s with
      pendingList := rest, calls := s.calls.set n (some c), created := s.created ++ [n],
      nextSequence := s.nextSequence + 1 } from { CallFrame.refl s with }).trans
    (callFrame_modPost ⟨rfl, rfl, rfl, rfl, rfl, rfl, rfl, rfl, rfl, rfl, rfl⟩))
  drop n c s _ hp := hp.trans ((show CallFrame s { s with
      calls := s.calls.set n none, created := s.created.filter (fun m => m ≠ n) } from { CallFrame.refl s with }).trans
    (callFrame_modPost ⟨rfl, rfl, rfl, rfl, rfl, rfl, rfl, rfl, rfl, rfl, rfl⟩))
  join p r s _ _ hp := by
    refine hp.trans ?_
    unfold joinPending
    exact (show CallFrame s { s with pendingList := s.pendingList ++ [⟨p, s.clock.seconds, r⟩] } from
      { CallFrame.refl s with }).trans (callFrame_modPost ⟨rfl, rfl, rfl, rfl, rfl, rfl, rfl, rfl, rfl, rfl, rfl⟩)
  pass e rest s _ hp := hp.trans ((show CallFrame s { s with pendingList := rest } from
    { CallFrame.refl s with }).trans (callFrame_modPost ⟨rfl, rfl, rfl, rfl, rfl, rfl, rfl, rfl, rfl, rfl, rfl⟩))
  unlist p s hp := hp.trans ((show CallFrame s { s with
      pendingList := s.pendingList.filter (fun e => e.post ≠ p) } from { CallFrame.refl s with }).trans
    (callFrame_modPost ⟨rfl, rfl, rfl, rfl, rfl, rfl, rfl, rfl, rfl, rfl, rfl⟩))

end Sys2Proof.Machine
end

