-- ==== Sys2Proof/WellFormed.lean ====
section
/-! DEFINITION. When a row's operands are ones a control link, a line port or the memory can present:
every identifier and number fits the bytes R176 gives it, and a block begins with its start marker.
Numbers inside that range but outside a command's own range are the business of the command's checks. -/

namespace Sys2Proof

/-- A number that fits `k` bytes. -/
def fitsBytes (k n : Nat) : Bool := n < 256 ^ k

/-- A call reference whose call number fits its byte. -/
def CallArg.wf (c : CallArg) : Bool := fitsBytes 1 c.number

/-- A post whose segment and address fit their bytes. -/
def PostArg.wf (p : PostArg) : Bool := fitsBytes 1 p.segment && fitsBytes 1 p.address

/-- Chainage in three bytes, C in two (R176). -/
def PostFields.wf (f : PostFields) : Bool := fitsBytes 3 f.chainage && f.cable.all (fitsBytes 2)

/-- Thresholds, test threshold and ring cadence in one byte; T, K, tolerance and ring timeout in two. -/
def SegmentFields.wf (f : SegmentFields) : Bool :=
  fitsBytes 1 f.turnOn && fitsBytes 1 f.turnOff && fitsBytes 2 f.turnaround && fitsBytes 2 f.cableConstant &&
    fitsBytes 2 f.tolerance && fitsBytes 1 f.testThreshold && fitsBytes 1 f.ringPeriod && fitsBytes 1 f.ringOnTime &&
    fitsBytes 2 f.ringTimeout

/-- Base chainage in three bytes; size code, overflow time and label in one. -/
def WindowFields.wf (f : WindowFields) : Bool :=
  fitsBytes 3 f.base && fitsBytes 1 f.sizeCode && fitsBytes 1 f.overflow && fitsBytes 1 f.label

/-- Offset and weight in one byte. -/
def ClassFields.wf (f : ClassFields) : Bool := fitsBytes 1 f.offset && fitsBytes 1 f.weight

/-- The well-formedness check of a row. -/
def Instr.wf : Instr → Bool
  | .readCall _ _ c => c.wf
  | .answer _ _ c ch => c.wf && fitsBytes 1 ch
  | .decline _ _ c => c.wf
  | .hold _ _ c => c.wf
  | .retrieve _ _ c => c.wf
  | .release _ _ c => c.wf
  | .join _ _ c ch => c.wf && fitsBytes 1 ch
  | .leave _ _ c => c.wf
  | .callPost _ _ p ch pr => p.wf && fitsBytes 1 ch && pr.all (fitsBytes 1)
  | .testPost _ _ p => p.wf
  | .readPost _ _ p => p.wf
  | .writePost _ _ _ p f => p.wf && f.wf
  | .clearPost _ _ _ p => p.wf
  | .readSegment _ _ g => fitsBytes 1 g
  | .writeSegment _ _ _ g f => fitsBytes 1 g && f.wf
  | .feedOff _ _ g => fitsBytes 1 g
  | .feedOn _ _ g => fitsBytes 1 g
  | .feedReEnable _ _ g => fitsBytes 1 g
  | .unmutePost _ _ p => p.wf
  | .readWindow _ _ w => fitsBytes 1 w
  | .writeWindow _ _ _ w f => fitsBytes 1 w && f.wf
  | .readClass _ _ e => fitsBytes 1 e
  | .writeClass _ _ _ e f => fitsBytes 1 e && f.wf
  | .writeDefaults _ _ _ _ w o => fitsBytes 1 w && fitsBytes 1 o
  | .writeLink _ _ _ _ d t => fitsBytes 1 d && fitsBytes 1 t
  | .badBlock _ bytes => bytes.head? == some 0xC5#8
  | .readStatus _ _ => true
  | .setTime _ _ _ => true
  | .listCalls _ _ => true
  | .listAbandoned _ _ => true
  | .listPending _ _ => true
  | .handoverFinish _ _ => true
  | .handoverImmediate _ _ => true
  | .resume _ _ => true
  | .lockStructure _ _ => true
  | .saveImage _ _ => true
  | .unknownCommand _ _ => true
  | .linkFrame _ _ _ _ => true
  | .startedSent _ => true
  | .linkLossExpiry _ => true
  | .feedVoltageFall _ _ _ => true
  | .feedVoltageAboveTurnOff _ _ _ => true
  | .feedVoltageAboveTurnOn _ _ _ => true
  | .overCurrent _ _ => true
  | .underVoltageFilterExpiry _ => true
  | .rePowerTimerExpiry _ => true
  | .tripRetryExpiry _ => true
  | .startUpSwitchOn _ => true
  | .pollSlot _ _ _ => true
  | .report _ _ _ => true
  | .responseWindowClose _ _ => true
  | .carrierStart _ => true
  | .attentionBurst _ => true
  | .babble _ => true
  | .isolationListenEnd _ _ => true
  | .economyPassStart _ => true
  | .onBatteryDeassert => true
  | .ageingStep _ => true
  | .overflowTimerExpiry _ => true
  | .ringPeriodStart _ => true
  | .ringOnTimeEnd _ => true
  | .ringDeadline _ => true
  | .testComparisonEnd _ _ => true
  | .imageWritten => true
  | .saveReadBackEnd _ => true
  | .imageLoadEnd _ => true
  | .loadTimeout => true
  | .powerOn => true
  | .supplySenseLow => true
  | .supplySenseGood => true
  | .holdOffExpiry => true
  | .resetPinAssert => true
  | .resetPinRelease => true
  | .timeClockTick => true

end Sys2Proof
end

