-- ==== Sys2Proof/Tests/Slice0.lean ====
section
/-! SUPPORT. The model's own tests: ill-formed rows refused, the worked examples and tables of the spec, the reading
of command bodies, one or two steps of every row, and for each statement a state and operands that meet its
hypotheses. Each test names the rule its expected result is taken from. -/

namespace Sys2Proof.Tests

open Sys2Proof Sys2Proof.Machine

-- One theorem at a time: two hundred kernel evaluations at once want a thread's stack each.
set_option Elab.async false

/-! ### Small states -/

/-- What a row leaves, where it answers a next state. -/
def after (i : Instr) (s : State) : Option State :=
  match exec i s with
  | .next t => some t
  | .fault _ => none
  | .refused _ => none

/-- The last response standing in a link's queue. -/
def lastResult (l : Link) (t : State) : Option Result :=
  (t.link l).queue.reverse.findSome? (fun b =>
    match b with
    | .response _ _ r => some r
    | .notice _ => none)

/-- A notice stands in a link's queue. -/
def told (l : Link) (n : Notice) (t : State) : Bool := (t.link l).queue.contains (.notice n)

/-- The part RUNNING with both links UP and the empty tables. -/
def running : State :=
  { State.reset with
    supply := { State.reset.supply with phase := .running }
    links := PerLink.both { LinkRec.atReset with up := true, lossTimer := some ⟨0, 3000⟩, startedSent := true } }

/-- Posts S1/01 and S1/02. -/
def p0 : PostId := ⟨0, 0⟩
def p1 : PostId := ⟨0, 1⟩

/-- Segment 1 ACTIVE with two posts PRESENT and on-hook. -/
def active : State :=
  modPost p1 (fun r => { r with presence := .present, hook := .on })
    (modPost p0 (fun r => { r with presence := .present, hook := .on })
      (modLine 0 (fun u => { u with feed := .active, feedOn := some 0, volts := 48 }) running))

/-- A call of S1/01 with sequence 5. -/
def call0 : Call :=
  { sequence := 5#16, kind := .emergency, post := p0, state := .queued, cls := .default, weight := 100,
    priority := 100, phase := some .openToBoth, home := some .a, overflowAt := none, offered := PerLink.both false,
    owner := none, ownerChannel := none, joinedChannel := none, pathHeld := false, lineDown := false,
    transferred := false, origin := 0#32,
    location := { post := p0, place := none, label := none, verification := .unranged, filtered := none,
                  probable := none, serial := none },
    ringDeadline := none, ageing := some 0, declineMark := none, cadence := none }

/-- The call in record 1, its post off-hook or not. -/
def withCall (c : Call) (hook : Hook) (s : State) : State :=
  modPost c.post (fun r => { r with call := some ⟨0, 5#16⟩, hook := hook })
    { s with calls := s.calls.set 0 (some c), created := [0], nextSequence := 6#16 }

/-- The reference 1.5 as a command carries it. -/
def ref0 : CallArg := ⟨1, 5#16⟩

/-- The call offered to both links. -/
def offered : State :=
  modLink .b (fun r => { r with offers := 1 }) (modLink .a (fun r => { r with offers := 1 })
    (withCall { call0 with state := .offered, offered := PerLink.both true } .off active))

/-- The call owned by link A on channel 1, in a state without the path. -/
def owned (st : CallState) : State :=
  modChannel .a 0 (fun _ => { use := .reserved 0 .owner, waitingTone := if st = .answered then some 0 else none,
                              heard := 0#16 })
    (withCall { call0 with state := st, owner := some .a, ownerChannel := some 0, ageing := none } .off active)

/-- The call as it is CONNECTED on channel A1. -/
def connectedCall : Call :=
  { call0 with state := .connected, owner := some .a, ownerChannel := some 0, ageing := none, pathHeld := true }

/-- The call CONNECTED on channel A1. -/
def connected : State :=
  let s := withCall connectedCall .off active
  let s := modChannel .a 0 (fun _ => { use := .connected 0 .owner, waitingTone := none, heard := 0#16 }) s
  let s := modPath 0 (fun q => { q with holder := .call ⟨0, 5#16⟩, grant := some ⟨⟨0, 5#16⟩, true⟩ }) s
  modPost p0 (fun r => { r with selected := true }) s

/-- The CONNECTED call joined by link B on B1. -/
def joined : State :=
  modChannel .b 0 (fun _ => { use := .connected 0 .joined, waitingTone := none, heard := 0#16 })
    (modCall 0 (fun c => { c with joinedChannel := some 0 }) connected)

/-- The call ANSWERED by link A, its path granted and its SELECT unanswered. -/
def granted : State :=
  modPath 0 (fun q => { q with holder := .call ⟨0, 5#16⟩, grant := some ⟨⟨0, 5#16⟩, false⟩ })
    (modCall 0 (fun c => { c with pathHeld := true }) (owned .answered))

/-- A RINGING callback to S1/01 of link A. -/
def ringing : State :=
  modChannel .a 0 (fun _ => { use := .reserved 0 .owner, waitingTone := none, heard := 0#16 })
    (withCall { call0 with kind := .callback, state := .ringing, owner := some .a, ownerChannel := some 0,
                           ageing := none, phase := none, home := none, ringDeadline := some 60000,
                           cadence := some ⟨0, 0, 40, 20, true⟩ } .on active)

/-- A line test of S1/01 RUNNING for link A. -/
def testing : State :=
  modPost p0 (fun r => { r with echo := true })
    (modPath 0 (fun q => { q with test := some ⟨0, .a, .running⟩, holder := .test, signal := some TestSignal.start })
      active)

/-- The window of an order to S1/01 is open. -/
def asked (o : Order) (queued : Bool) (s : State) : State :=
  modPoll 0 (fun q => { q with sent := some ⟨0, o, queued, false⟩ }) s

/-- Segment 1 in a feed state. -/
def fed (f : FeedState) : State := modLine 0 (fun u => { u with feed := f, volts := 48 }) running

/-- Window 0 of the part as given. -/
def windowed (w : Window) : State :=
  { running with tables := { running.tables with windows := running.tables.windows.set 0 w } }

/-- Segment 1 ISOLATING, its sweep dealing with address 1 at a step. -/
def sweeping (step : IsolationStep) : State :=
  modPoll 0 (fun q => { q with isolation := some step, isolationPosition := some 0 })
    (modLine 0 (fun u => { u with feed := .isolating }) active)

/-- The call HOME on link A and offered there, its overflow timer running. -/
def atHome : State :=
  let c : Call := { call0 with phase := some .home, overflowAt := some 20000, state := .offered, offered := ⟨true, false⟩ }
  withCall c .off active

/-- A good image of revision 9 with segments 3 and 6 disabled stands in the memory at the end of LOADING. -/
def imaged : State :=
  let off : SegmentConfig := { SegmentConfig.withoutImage with feedEnabled := false }
  let segments := (Tables.withoutImage.segments.set 2 off).set 5 off
  let tables : Tables := { Tables.withoutImage with segments := segments }
  { State.reset with memory := ⟨0xA55A3CC3#32, 9#16, imageSize, tables, true⟩ }

/-- The part held in a POWER_ON reset with the supply low. -/
def inReset : State :=
  { State.reset with supply := { phase := .inReset, cause := .powerOn, senseLow := true, holdOff := none, pinLow := false } }

/-- The bytes of a report of S1/01 with a serial, flags and payload (R177). -/
def reportBytes (serial : Serial) (flags : Byte) (payload : List Byte) : List Byte :=
  let body := [0x01#8] ++ bytes32 serial ++ [flags, byteOf payload.length] ++ payload
  body ++ bytes16 (crc16 body)

/-- Four silent samples, and eight. -/
def quiet4 : Vector Sample 4 := Vector.replicate 4 0#16
def quiet8 : Vector Sample 8 := Vector.replicate 8 0#16

/-! ### Well-formedness: one ill-formed row for each check -/

theorem test_wf_call_number : (Instr.answer .a 7 ⟨256, 0#16⟩ 1).wf = false := by decide
theorem test_wf_channel : (Instr.join .a 7 ref0 256).wf = false := by decide
theorem test_wf_post_segment : (Instr.readPost .a 7 ⟨256, 1⟩).wf = false := by decide
theorem test_wf_post_address : (Instr.testPost .a 7 ⟨1, 256⟩).wf = false := by decide
theorem test_wf_priority : (Instr.callPost .a 7 ⟨1, 1⟩ 1 (some 256)).wf = false := by decide
theorem test_wf_chainage :
    (Instr.writePost .a 7 none ⟨1, 1⟩ ⟨16777216, .named .one, .named .left, .named .slip, none, none⟩).wf = false := by
  decide
theorem test_wf_cable :
    (Instr.writePost .a 7 none ⟨1, 1⟩ ⟨0, .named .one, .named .left, .named .slip, some 65536, none⟩).wf = false := by
  decide
theorem test_wf_segment_number : (Instr.readSegment .a 7 256).wf = false := by decide
theorem test_wf_segment_fields :
    [(⟨.named true, 256, 18, 0, 100, 0, 0, 1, 0, 10⟩ : SegmentFields), ⟨.named true, 20, 256, 0, 100, 0, 0, 1, 0, 10⟩,
     ⟨.named true, 20, 18, 65536, 100, 0, 0, 1, 0, 10⟩, ⟨.named true, 20, 18, 0, 65536, 0, 0, 1, 0, 10⟩,
     ⟨.named true, 20, 18, 0, 100, 65536, 0, 1, 0, 10⟩, ⟨.named true, 20, 18, 0, 100, 0, 256, 1, 0, 10⟩,
     ⟨.named true, 20, 18, 0, 100, 0, 0, 256, 0, 10⟩, ⟨.named true, 20, 18, 0, 100, 0, 0, 1, 256, 10⟩,
     ⟨.named true, 20, 18, 0, 100, 0, 0, 1, 0, 65536⟩].any (fun f => (Instr.writeSegment .a 7 none 1 f).wf) = false := by
  decide
theorem test_wf_window_fields :
    [(⟨true, 16777216, 0, .named .both, .named .a, 20, 0#9, 0⟩ : WindowFields),
     ⟨true, 0, 256, .named .both, .named .a, 20, 0#9, 0⟩, ⟨true, 0, 0, .named .both, .named .a, 256, 0#9, 0⟩,
     ⟨true, 0, 0, .named .both, .named .a, 20, 0#9, 256⟩].any (fun f => (Instr.writeWindow .a 7 none 1 f).wf) = false := by
  decide
theorem test_wf_window_number : (Instr.readWindow .a 7 256).wf = false := by decide
theorem test_wf_class_fields :
    [(⟨true, .named .call, 256, 0#24, 0#16, false, false, true, 0⟩ : ClassFields),
     ⟨true, .named .call, 0, 0#24, 0#16, false, false, true, 256⟩].any
      (fun f => (Instr.writeClass .a 7 none 1 f).wf) = false := by
  decide
theorem test_wf_entry_number : (Instr.readClass .a 7 256).wf = false := by decide
theorem test_wf_defaults :
    (Instr.writeDefaults .a 7 none (.named .a) 256 20).wf = false ∧
      (Instr.writeDefaults .a 7 none (.named .a) 0 256).wf = false := by
  decide
theorem test_wf_link :
    (Instr.writeLink .a 7 none (.named .a) 256 3).wf = false ∧ (Instr.writeLink .a 7 none (.named .a) 4 256).wf = false := by
  decide
theorem test_wf_marker : (Instr.badBlock .a [0x3C#8, 0x00#8]).wf = false := by decide
theorem test_wf_accepts : (Instr.answer .a 7 ref0 4).wf = true ∧ (Instr.badBlock .a [0xC5#8]).wf = true := by decide

/-! ### The spec's tables and worked values -/

/-- R47: the nine bytes 31 to 39 hex give 29B1 hex. -/
theorem test_crc_check :
    crc16 [0x31#8, 0x32#8, 0x33#8, 0x34#8, 0x35#8, 0x36#8, 0x37#8, 0x38#8, 0x39#8] = 0x29B1#16 := by decide +kernel
/-- R47: the table of one-byte selections. -/
theorem test_crc_one_byte :
    crc16 [0x00#8] = 0xE1F0#16 ∧ crc16 [0x01#8] = 0xF1D1#16 ∧ crc16 [0xFE#8] = 0xEF21#16 ∧ crc16 [0xFF#8] = 0xFF00#16 := by
  decide +kernel
/-- R58: the table of distances. -/
theorem test_range_table :
    rangeSample 0 0 990 = .distance 0 false ∧ rangeSample 1 0 150 = .distance 2 false ∧
      rangeSample 2823 2500 990 = .distance 3198 false ∧ rangeSample 5000 0 1500 = .distance 65535 true ∧
      rangeSample 65535 0 1500 = .distance 65535 true := by decide
/-- R57: a delay under T is EARLY. -/
theorem test_range_early : rangeSample 2499 2500 990 = .early := by decide
/-- R59: an eighth of the difference toward the sample, at least one metre. -/
theorem test_filter :
    filterDistance (some 100) 180 = 110 ∧ filterDistance (some 100) 103 = 101 ∧ filterDistance (some 100) 21 = 91 ∧
      filterDistance (some 100) 99 = 99 ∧ filterDistance none 7 = 7 := by decide
/-- R3: 30 and 35 V store 30 and 28 V; then 25 and 28 V store 25 and 23 V. -/
theorem test_threshold_clamps :
    ((storedSegment ⟨.named true, 30, 35, 0, 100, 0, 0, 1, 0, 10⟩ true).turnOff = 28) ∧
      ((storedSegment ⟨.named true, 25, 28, 0, 100, 0, 0, 1, 0, 10⟩ true).turnOff = 23) := by decide
/-- R132: a period of 10 with an on-time of 25 stores 10 and 10. -/
theorem test_cadence_clamp :
    (storedSegment ⟨.named true, 30, 28, 0, 100, 0, 0, 10, 25, 10⟩ true).ringOnTime = 10 := by decide
/-- R110: base 50,000 with size code 3 stores 49,152. -/
theorem test_window_base :
    (storedWindow ⟨true, 50000, 3, .named .both, .named .a, 20, 0#9, 0⟩).map (·.base) = some 49152 := by decide
/-- R138: the first bits of the test sequence, from the register at 01 hex. -/
theorem test_sequence_starts :
    testSequence.take 9 = [true, false, false, false, false, false, false, false, true] := by decide +kernel
/-- R138: 255 bits, 128 of them ones. -/
theorem test_sequence_ones : testSequence.length = 255 ∧ testSequence.count true = 128 := by decide +kernel

/-! ### Reading command bodies (R158, R176, 12.1, 12.4) -/

theorem test_read_answer : readBlock .b 9#16 0x07#8 [0x03#8, 0x01#8, 0x02#8, 0x04#8] =
    .command (.answer .b 9#16 ⟨3, 0x0102#16⟩ 4) := by decide +kernel
theorem test_read_call_post : readBlock .a 9#16 0x0E#8 [0x02#8, 0x10#8, 0x01#8, 0x01#8, 0xC8#8] =
    .command (.callPost .a 9#16 ⟨2, 16⟩ 1 (some 200)) := by decide +kernel
theorem test_read_feed_modes :
    readBlock .a 9#16 0x17#8 [0x03#8, 0x02#8] = .command (.feedReEnable .a 9#16 3) ∧
      readBlock .a 9#16 0x17#8 [0x03#8, 0x03#8] = .badFeedMode ∧
      readBlock .a 9#16 0x10#8 [0x01#8] = .command (.handoverImmediate .a 9#16) := by decide +kernel
theorem test_read_write_link : readBlock .a 9#16 0x1E#8 [0x01#8, 0x00#8, 0x05#8, 0x02#8, 0x08#8, 0x1E#8] =
    .command (.writeLink .a 9#16 (some 5#16) (.named .b) 8 30) := by decide +kernel
theorem test_read_lengths :
    readBlock .a 9#16 0x07#8 [0x03#8, 0x01#8, 0x02#8] = .malformed ∧
      readBlock .a 9#16 0x01#8 [0x00#8] = .malformed ∧
      readBlock .a 9#16 0x21#8 [] = .command (.unknownCommand .a 9#16) := by decide +kernel
theorem test_no_row_has_bits : decodeTableWord 16 0 = none := by decide

/-! ### The rows: commands -/

/-- R162: the asking link's overrun flag is reported and then cleared; the waiting call is counted. -/
theorem test_readStatus :
    (after (.readStatus .a 7) (modLink .a (fun r => { r with overrun := true }) offered)).map (fun t =>
      (match lastResult .a t with
        | some (.done (.status d)) => (d.running, d.callsInUse, d.waitingCount, d.overrun)
        | _ => (false, 0, 0, false), (t.link .a).overrun)) = some ((true, 1, 1, true), false) := by decide +kernel
/-- R163. -/
theorem test_setTime : (after (.setTime .a 7 1000#32) running).map (fun t => (t.clock.seconds, t.clock.isSet)) =
    some (1000#32, true) := by decide +kernel
/-- R92: the waiting call is listed. -/
theorem test_listCalls : (after (.listCalls .b 7) offered).map (fun t =>
    match lastResult .b t with
    | some (.done (.calls l)) => l.map (·.number)
    | _ => []) = some [0] := by decide +kernel
/-- R92, R159: call 1 with another sequence is no such call; call 33 is malformed. -/
theorem test_readCall :
    (after (.readCall .a 7 ⟨1, 4#16⟩) offered).map (lastResult .a) = some (some (.refused .noSuchCall)) ∧
      (after (.readCall .a 7 ⟨33, 5#16⟩) offered).map (lastResult .a) = some (some (.refused .malformed)) := by
  decide +kernel
/-- R93. -/
theorem test_listAbandoned :
    (after (.listAbandoned .a 7) running).map (lastResult .a) = some (some (.done (.abandoned []))) := by decide +kernel
/-- R93. -/
theorem test_listPending :
    (after (.listPending .a 7) { running with pendingList := [⟨p0, 3#32, ⟨.default, 100⟩⟩] }).map (lastResult .a) =
      some (some (.done (.pendingPosts [⟨p0, 3#32, ⟨.default, 100⟩⟩]))) := by decide +kernel
/-- R104, R115: the call is link A's on channel 1, its path granted and SELECT requested; B loses its offer. -/
theorem test_answer : (after (.answer .a 7 ref0 1) offered).map (fun t =>
    ((t.call 0).map (fun c => (c.owner, c.state, c.pathHeld)), (t.channel .a 0).use, (t.poll 0).queue,
      told .b (.callWithdrawn ⟨0, 5#16⟩ p0 (.answered .a)) t)) =
    some (some (some .a, .answered, true), .reserved 0 .owner, [⟨0, .select⟩], true) := by decide +kernel
/-- R106: the mark is set, link B's offer stands. -/
theorem test_decline : (after (.decline .a 7 ref0) offered).map (fun t =>
    (t.call 0).map (fun c => (c.declineMark, c.offered, c.state))) = some (some (some .a, ⟨false, true⟩, .offered)) := by
  decide +kernel
/-- R118, R123: the path is released, DESELECT requested, the channel RESERVED. -/
theorem test_hold : (after (.hold .a 7 ref0) connected).map (fun t =>
    ((t.call 0).map (fun c => (c.state, c.pathHeld)), (t.path 0).holder, (t.poll 0).queue, (t.channel .a 0).use)) =
    some (some (.held, false), .none, [⟨0, .deselect⟩], .reserved 0 .owner) := by decide +kernel
/-- R124: ANSWERED with the free path. -/
theorem test_retrieve : (after (.retrieve .a 7 ref0) (owned .held)).map (fun t =>
    ((t.call 0).map (fun c => (c.state, c.pathHeld)), (t.path 0).holder)) =
    some (some (.answered, true), .call ⟨0, 5#16⟩) := by decide +kernel
/-- R86, R87: the record and the channel are free, the off-hook post is barred, CALL_CLEARED goes out. -/
theorem test_release : (after (.release .a 7 ref0) connected).map (fun t =>
    ((t.call 0).isNone, (t.channel .a 0).use, (t.post p0).barred,
      told .b (.callCleared ⟨0, 5#16⟩ p0 .connected (some .a) .release (some .a)) t)) =
    some (true, .free, true, true) := by decide +kernel
/-- R125. -/
theorem test_join : (after (.join .b 7 ref0 4) connected).map (fun t =>
    ((t.call 0).map (·.joinedChannel), (t.channel .b 3).use)) = some (some (some 3), .connected 0 .joined) := by
  decide +kernel
/-- R119, R120: what came on B4 while it was FREE is not heard once B has joined on it. -/
theorem test_join_hears_nothing_old :
    (((after (.linkFrame .b (quiet4.set 3 5#16) 0x3C#8 quiet8) connected).bind (after (.join .b 7 ref0 4))).bind
      (after (.linkFrame .a quiet4 0x3C#8 (quiet8.set 0 9#16)))).map (fun t => (t.link .a).transmitted[0]) =
      some 9#16 := by decide +kernel
/-- R126. -/
theorem test_leave : (after (.leave .b 7 ref0) joined).map (fun t =>
    ((t.call 0).map (·.joinedChannel), (t.channel .b 0).use)) = some (some none, .free) := by decide +kernel
/-- R129, R130: a RINGING callback of priority 128 with RING_ON requested. -/
theorem test_callPost : (after (.callPost .b 7 ⟨1, 2⟩ 2 none) active).map (fun t =>
    ((t.call 0).map (fun c => (c.state, c.priority, c.ringDeadline)), (t.poll 0).queue)) =
    some (some (.ringing, 128, some 60000), [⟨1, .ringOn⟩]) := by decide +kernel
/-- R137, R138: the free path goes to the test. -/
theorem test_testPost : (after (.testPost .a 7 ⟨1, 1⟩) active).map (fun t =>
    ((t.path 0).test, (t.path 0).holder, (t.poll 0).queue)) =
    some (some ⟨0, .a, .starting⟩, .test, [⟨0, .echoOn⟩]) := by decide +kernel
/-- R144, R145: with a call owned the link drains; with none it is CLOSED at once. -/
theorem test_handoverFinish :
    (after (.handoverFinish .a 7) connected).map (fun t => (t.link .a).mode) = some .draining ∧
      (after (.handoverFinish .a 7) active).map (fun t => (t.link .a).mode) = some .closed := by decide +kernel
/-- R146, R149: the call not joined becomes TRANSFERRING with 20 more priority. -/
theorem test_handoverImmediate : (after (.handoverImmediate .a 7) connected).map (fun t =>
    ((t.link .a).mode, (t.link .a).transfers, (t.call 0).map (fun c => (c.state, c.priority, c.offered.b)))) =
    some (.closed, 1, some (.transferring, 120, true)) := by decide +kernel
/-- R147. -/
theorem test_resume :
    (after (.resume .a 7) (modLink .a (fun r => { r with mode := .closed }) running)).map (fun t => (t.link .a).mode) =
      some .accepting := by decide +kernel
/-- R22, R159. -/
theorem test_readPost : (after (.readPost .a 7 ⟨1, 17⟩) running).map (lastResult .a) =
    some (some (.refused .malformed)) := by decide +kernel
/-- R165 to R167: stored, one change counted; a serial of 0 is stored absent. -/
theorem test_writePost :
    (after (.writePost .a 7 (some 0#16) ⟨1, 1⟩ ⟨1048575, .named .two, .named .median, .named .tunnel, some 300,
      some 0#32⟩) running).map (fun t => (t.postConfig p0, t.manager.revision)) =
      some (some ⟨1048575, .two, .median, .tunnel, some 300, none⟩, 1#16) := by decide +kernel
/-- R166, R170: STALE before LOCKED. -/
theorem test_clearPost :
    (after (.clearPost .a 7 (some 1#16) ⟨1, 1⟩) running).map (lastResult .a) = some (some (.refused .stale)) ∧
      (after (.clearPost .a 7 none ⟨1, 1⟩) { running with manager := { running.manager with lock := true } }).map
        (lastResult .a) = some (some (.refused .locked)) := by decide +kernel
/-- R19: the voltage is reported held at 63. -/
theorem test_readSegment : (after (.readSegment .a 7 1) (modLine 0 (fun u => { u with volts := 70 }) running)).map (fun t =>
    match lastResult .a t with
    | some (.done (.segment d)) => d.volts
    | _ => 0) = some 63 := by decide +kernel
/-- R3, R4, R168: 30 and 35 V are stored as 30 and 28 V. -/
theorem test_writeSegment :
    (after (.writeSegment .a 7 none 1 ⟨.named true, 30, 35, 2500, 990, 60, 4, 40, 20, 60⟩) active).map (fun t =>
      ((t.segmentConfig 0).turnOn, (t.segmentConfig 0).turnOff, t.manager.revision)) = some (30, 28, 1#16) := by
  decide +kernel
/-- R13, R16. -/
theorem test_feedOff : (after (.feedOff .a 7 1) active).map (fun t =>
    ((t.line 0).feed, (t.post p0).presence, told .b (.segmentState 0 .off .active (.command .a) 0) t)) =
    some (.off, .unknown, true) := by decide +kernel
/-- R13: OFF goes to POWERING with the re-power timer stopped. -/
theorem test_feedOn : (after (.feedOn .a 7 1) running).map (fun t => ((t.line 0).feed, (t.line 0).rePower)) =
    some (.powering, none) := by decide +kernel
/-- R12, R13: RE-ENABLE of a LOCKED segment sets the trip count to 0. -/
theorem test_feedReEnable :
    (after (.feedReEnable .a 7 1) (modLine 0 (fun u => { u with feed := .locked, trips := 3 }) running)).map (fun t =>
      ((t.line 0).feed, (t.line 0).trips)) = some (.powering, 0) := by decide +kernel
/-- R43: a post that is not MUTED is refused BAD_STATE; a MUTED one has UNMUTE requested. -/
theorem test_unmutePost :
    (after (.unmutePost .a 7 ⟨1, 1⟩) active).map (lastResult .a) = some (some (.refused .badState)) ∧
      (after (.unmutePost .a 7 ⟨1, 1⟩) (modPost p0 (fun r => { r with presence := .muted }) active)).map
        (fun t => (t.poll 0).queue) = some [⟨0, .unmute⟩] := by decide +kernel
/-- R111: the block of base 49,152 m with size code 3 ends at 57,343 m. -/
theorem test_readWindow :
    (after (.readWindow .a 7 0) (windowed { Window.withoutImage with base := 49152, sizeCode := 3 })).map (fun t =>
      match lastResult .a t with
      | some (.done (.window _ first last)) => (first, last)
      | _ => (0, 0)) = some (49152, 57343) := by decide +kernel
/-- R110: the overflow time is held at 5 to 120 s, and 50,000 m with size code 3 is stored as 49,152 m. -/
theorem test_writeWindow :
    (after (.writeWindow .a 7 none 7 ⟨true, 50000, 3, .named .both, .named .b, 200, 0x1FF#9, 255⟩) running).map (fun t =>
      ((t.tables.windows[7]).base, (t.tables.windows[7]).overflow)) = some (49152, 120) := by decide +kernel
/-- The structure lock set over window 1 at 49,152 m. -/
def lockedWindow : State :=
  { windowed { Window.withoutImage with base := 49152, sizeCode := 3 } with
    manager := { running.manager with lock := true } }
/-- A WRITE_WINDOW of the window of `lockedWindow`, from a base and with a label. -/
def sameWindow (base label : Nat) : WindowFields :=
  let w := Window.withoutImage
  ⟨w.enabled, base, 3, .named w.carriageway, .named w.home, w.overflow, w.classMask, label⟩
/-- R110, R170: under the structure lock a write that repeats the window exactly as stored is accepted; one that changes it,
or that is stored the same only after its base is rounded, is refused LOCKED. -/
theorem test_writeWindow_lock :
    (after (.writeWindow .a 7 none 0 (sameWindow 49152 0)) lockedWindow).map (fun t => t.manager.revision) = some 1#16 ∧
      ∀ f ∈ [sameWindow 49152 1, sameWindow 50000 0],
        (after (.writeWindow .a 7 none 0 f) lockedWindow).map (lastResult .a) = some (some (.refused .locked)) := by
  decide +kernel
/-- R54: with DEFAULT the default class weight; 9 is malformed. -/
theorem test_readClass :
    (after (.readClass .a 7 8) running).map (lastResult .a) = some (some (.done (.defaultWeight 100))) ∧
      (after (.readClass .a 7 9) running).map (lastResult .a) = some (some (.refused .malformed)) := by decide +kernel
/-- R53: the weight is held at 200; an offset of 24 is malformed. -/
theorem test_writeClass :
    (after (.writeClass .a 7 none 0 ⟨true, .named .alarm, 23, 1#24, 0#16, false, false, true, 255⟩) running).map (fun t =>
      (t.tables.classes[0]).weight) = some 200 ∧
      (after (.writeClass .a 7 none 0 ⟨true, .named .alarm, 24, 1#24, 0#16, false, false, true, 0⟩) running).map
        (lastResult .a) = some (some (.refused .malformed)) := by decide +kernel
/-- R169. -/
theorem test_writeDefaults : (after (.writeDefaults .a 7 none (.named .b) 201 4) running).map (fun t => t.tables.defaults) =
    some ⟨.b, 200, 5⟩ := by decide +kernel
/-- R157, R164: link B's timer is measured again from its last valid message. -/
theorem test_writeLink : (after (.writeLink .a 7 none (.named .b) 9 31) running).map (fun t =>
    (t.tables.links.b, (t.link .b).lossTimer)) = some (⟨8, 30⟩, some ⟨0, 30000⟩) := by decide +kernel
/-- R170. -/
theorem test_lockStructure : (after (.lockStructure .a 7) running).map (fun t => t.manager.lock) = some true := by
  decide +kernel
/-- R171, R172: SAVING; a second save is refused BUSY. -/
theorem test_saveImage : (after (.saveImage .a 7) running).map (fun t => t.manager.image) = some .saving ∧
    ((after (.saveImage .a 7) running).bind (after (.saveImage .b 8))).map (lastResult .b) =
      some (some (.refused .busy)) := by decide +kernel
/-- R158, R159. -/
theorem test_unknownCommand : (after (.unknownCommand .a 7) running).map (lastResult .a) =
    some (some (.refused .malformed)) := by decide +kernel

/-! ### The rows: links -/

/-- R156: a block of length 2 is discarded. -/
theorem test_badBlock : (after (.badBlock .a [0xC5#8, 0x00#8, 0x02#8]) running).map (fun t => ((t.link .a).queue, (t.link .a).assembly)) =
    some ([], []) := by decide +kernel
/-- R120: the owner channel of the CONNECTED call hears its post, and the post hears the owner. -/
theorem test_linkFrame :
    (after (.linkFrame .a (quiet4.set 0 5#16) 0x3C#8 (quiet8.set 0 9#16)) connected).map (fun t =>
      ((t.link .a).transmitted[0], (t.link .a).transmitted[1], (t.path 0).speechOut, (t.link .a).transmittedByte)) =
      some (9#16, 0#16, 5#16, 0x3C#8) := by decide +kernel
/-- R120, R155, log 14: with A's frames stopped the post hears B's channel from B's frames. -/
theorem test_linkFrame_of_B_moves_the_ports :
    ((after (.linkFrame .b (quiet4.set 0 5#16) 0x3C#8 quiet8) { joined with framed := ⟨true, false⟩ }).bind (fun s =>
      (after (.linkFrame .b (quiet4.set 0 6#16) 0x3C#8 quiet8) s).map (fun t =>
        ((s.path 0).speechOut, (t.path 0).speechOut)))) = some (0#16, 6#16) := by decide +kernel
/-- R138: after the eight samples of a bit the register 01 hex becomes 80 hex. -/
theorem test_signal_shifts :
    ({ register := 0x01#8, sample := 7 } : TestSignal).advance = { register := 0x80#8, sample := 8 } := by decide
/-- R161. -/
theorem test_startedSent : (after (.startedSent .a) (modLink .a (fun r =>
    { r with queue := [.notice running.startedNotice], startedSent := false }) running)).map (fun t =>
      ((t.link .a).startedSent, (t.link .a).queue)) = some (true, []) := by decide +kernel
/-- R149, R151: the link is DOWN, and its call goes to the joined peer. -/
theorem test_linkLossExpiry : (after (.linkLossExpiry .a) joined).map (fun t =>
    ((t.link .a).up, (t.call 0).map (fun c => (c.owner, c.state)), t.timebase)) =
    some (false, some (some .b, .connected), 3000) := by decide +kernel

/-! ### The rows: Line Units -/

/-- R5: below turn-off (38 V) the 200 ms filter starts. -/
theorem test_feedVoltageFall : (after (.feedVoltageFall 0 37 false) active).map (fun t => ((t.line 0).feed, (t.line 0).underFilter)) =
    some (.active, some 200) := by decide +kernel
/-- R5: at turn-off the filter stops. -/
theorem test_feedVoltageAboveTurnOff :
    (after (.feedVoltageAboveTurnOff 0 38 false) (modLine 0 (fun u => { u with underFilter := some 200 }) active)).map
      (fun t => (t.line 0).underFilter) = some none := by decide +kernel
/-- R6: above turn-on (44 V) FEED_LOST goes to POWERING with 2 s to run; at 44 V it does not. -/
theorem test_feedVoltageAboveTurnOn :
    (after (.feedVoltageAboveTurnOn 0 45 false) (fed .feedLost)).map (fun t => ((t.line 0).feed, (t.line 0).rePower)) =
      some (.powering, some 2000) ∧
    (after (.feedVoltageAboveTurnOn 0 44 false) (fed .feedLost)).map (fun t => (t.line 0).feed) = some .feedLost := by
  decide +kernel
/-- R10: within 30 s of the feed-on mark the count rises, and at 3 the segment is LOCKED. -/
theorem test_overCurrent :
    (after (.overCurrent 0 2) (modLine 0 (fun u => { u with trips := 2 }) { active with timebase := 30000 })).map (fun t =>
      ((t.line 0).feed, (t.line 0).trips)) = some (.locked, 3) ∧
    (after (.overCurrent 0 2) (modLine 0 (fun u => { u with trips := 2 }) { active with timebase := 30001 })).map (fun t =>
      ((t.line 0).feed, (t.line 0).trips, (t.line 0).retry)) = some (.tripped, 1, some 35001) := by decide +kernel
/-- R5, R15. -/
theorem test_underVoltageFilterExpiry :
    (after (.underVoltageFilterExpiry 0) (modLine 0 (fun u => { u with underFilter := some 200 }) connected)).map (fun t =>
      ((t.line 0).feed, (t.call 0).map (fun c => (c.state, c.lineDown)), t.timebase)) =
      some (.feedLost, some (.lineLost, true), 200) := by decide +kernel
/-- R7, R8. -/
theorem test_rePowerTimerExpiry :
    (after (.rePowerTimerExpiry 0) (modLine 0 (fun u => { u with rePower := some 2000 }) (fed .powering))).map (fun t =>
      ((t.line 0).feed, (t.poll 0).discovery)) = some (.discovery, some 0) := by decide +kernel
/-- R11. -/
theorem test_tripRetryExpiry :
    (after (.tripRetryExpiry 0) (modLine 0 (fun u => { u with retry := some 5000 }) (fed .tripped))).map (fun t =>
      ((t.line 0).feed, (t.line 0).feedOn)) = some (.powering, some 5000) := by decide +kernel
/-- R18. -/
theorem test_startUpSwitchOn :
    (after (.startUpSwitchOn 4) (modLine 4 (fun u => { u with startUp := true, startUpAt := some 750 }) running)).map (fun t =>
      ((t.line 4).feed, (t.line 4).startUp, (t.line 4).feedOn)) = some (.powering, false, some 750) := by decide +kernel

/-! ### The rows: polling -/

/-- R34: STATUS to the sweep position; a MUTED post is passed over. -/
theorem test_pollSlot :
    (after (.pollSlot 0 false false) (modPost p1 (fun r => { r with presence := .muted }) active)).map (fun t =>
      ((t.poll 0).sent, (t.poll 0).sweepPosition)) = some (some ⟨0, .status, false, false⟩, 2) := by decide +kernel
/-- R177: STATUS to address 1 goes out as 01, 01 and their CRC; R40: MUTE_ALL as 00, 0C and theirs. -/
theorem test_pollSlot_bursts :
    (after (.pollSlot 0 false false) active).map (fun t => (t.poll 0).burst) =
        some ([0x01#8, 0x01#8] ++ bytes16 (crc16 [0x01#8, 0x01#8])) ∧
      (after (.pollSlot 0 true false) (sweeping .muteAllNext)).map (fun t => (t.poll 0).burst) =
        some ([0x00#8, 0x0C#8] ++ bytes16 (crc16 [0x00#8, 0x0C#8])) := by decide +kernel
/-- R117: the answer of its SELECT makes the call CONNECTED. -/
theorem test_report_of_select :
    (after (.report 0 2823 (reportBytes 71#32 0x02#8 [])) (asked .select true granted)).map (fun t =>
      ((t.call 0).map (·.state), (t.post p0).selected, (t.channel .a 0).use)) =
      some (some .connected, true, .connected 0 .owner) := by decide +kernel
/-- R28, R76, R77: an off-hook report makes a call of the default class, offered at once, with REGISTERED. -/
theorem test_report :
    (after (.report 0 2823 (reportBytes 71#32 0x02#8 [])) (asked .status false active)).map (fun t =>
      ((t.call 0).map (fun c => (c.kind, c.post, c.priority)), (t.poll 0).queue, (t.post p0).lastSample)) =
      some (some (.emergency, p0, 100), [⟨0, .registered⟩], some (.distance 3198 false)) := by decide +kernel
/-- R26: the third miss makes a PRESENT post LOST. -/
theorem test_responseWindowClose :
    (after (.responseWindowClose 0 false) (asked .status false (modPost p0 (fun r => { r with missed := 2 }) active))).map
      (fun t => ((t.post p0).presence, (t.post p0).missed, told .a (.postLost p0) t)) = some (.lost, 3, true) := by
  decide +kernel
/-- R31: the queue entry of an UNKNOWN post that becomes LOST is removed. -/
theorem test_responseWindowClose_unknown :
    (after (.responseWindowClose 0 false) (asked .status false (modPoll 0 (fun q => { q with queue := [⟨0, .clear⟩] })
      (modPost p0 (fun r => { r with presence := .unknown, missed := 2 }) active)))).map
      (fun t => ((t.post p0).presence, (t.poll 0).queue, told .a (.postLost p0) t)) = some (.lost, [], false) := by
  decide +kernel
/-- R38. -/
theorem test_carrierStart : (after (.carrierStart 0) { active with timebase := 9 }).map (fun t => (t.line 0).carrierSince) =
    some (some 9) := by decide +kernel
/-- R39: in ECONOMY an attention burst returns the segment to NORMAL. -/
theorem test_attentionBurst :
    (after (.attentionBurst 0) (modPoll 0 (fun q => { q with tempo := .economy, covered := 5 }) active)).map (fun t =>
      ((t.poll 0).tempo, (t.poll 0).covered)) = some (.normal, 0) := by decide +kernel
/-- R9, R40. -/
theorem test_babble : (after (.babble 0) active).map (fun t => ((t.line 0).feed, (t.poll 0).isolation)) =
    some (.isolating, some .muteAllNext) := by decide +kernel
/-- R41: no carrier after MUTE makes the babbler MUTED. -/
theorem test_isolationListenEnd :
    (after (.isolationListenEnd 0 false) (sweeping (.muteListen 240))).map (fun t =>
      ((t.post p0).presence, (t.poll 0).isolationPosition, told .a (.babblerIsolated p0 none .present) t)) =
      some (.muted, some 1, true) := by decide +kernel
/-- R35: the next pass falls 10 s later. -/
theorem test_economyPassStart :
    (after (.economyPassStart 0) (modPoll 0 (fun q => { q with tempo := .economy, economyDue := some 10000 }) active)).map
      (fun t => ((t.poll 0).economyPass, (t.poll 0).economyDue)) = some (true, some 20000) := by decide +kernel
/-- R36. -/
theorem test_onBatteryDeassert :
    (after .onBatteryDeassert (modPoll 0 (fun q => { q with tempo := .economy }) { active with onBattery := true })).map
      (fun t => (t.onBattery, (t.poll 0).tempo)) = some (false, .normal) := by decide +kernel

/-! ### The rows: calls and tests -/

/-- R78: held at 255. -/
theorem test_ageingStep :
    (after (.ageingStep 0) (modCall 0 (fun c => { c with priority := 255 }) offered)).map (fun t =>
      (t.call 0).map (fun c => (c.priority, c.ageing))) = some (some (255, some 10000)) := by decide +kernel
/-- R98, R100: an OPEN call is offered to the other link too. -/
theorem test_overflowTimerExpiry :
    (after (.overflowTimerExpiry 0) atHome).map (fun t =>
      (t.call 0).map (fun c => (c.phase, c.offered))) = some (some (some .openToBoth, PerLink.both true)) := by decide +kernel
/-- R131: the next period begins as the one before ends, 40 × 50 ms on. -/
theorem test_ringPeriodStart : (after (.ringPeriodStart 0) ringing).map (fun t =>
    ((t.call 0).bind (·.cadence), (t.poll 0).queue)) = some (some ⟨0, 2000, 40, 20, true⟩, [⟨0, .ringOn⟩]) := by
  decide +kernel
/-- R131: RING_OFF at 20 × 50 ms. -/
theorem test_ringOnTimeEnd : (after (.ringOnTimeEnd 0) ringing).map (fun t => (t.timebase, (t.poll 0).queue)) =
    some (1000, [⟨0, .ringOff⟩]) := by decide +kernel
/-- R134. -/
theorem test_ringDeadline : (after (.ringDeadline 0) ringing).map (fun t =>
    ((t.call 0).isNone, told .b (.callbackUnanswered ⟨0, 5#16⟩ p0 (some .a) 0#32 60) t)) = some (true, true) := by
  decide +kernel
/-- R139: 0 errors pass; with no echo carrier all 255 fail. -/
theorem test_testComparisonEnd :
    (after (.testComparisonEnd 0 (some testSequence)) testing).map (fun t => (t.path 0).lastTest) = some (some (.pass 0)) ∧
      (after (.testComparisonEnd 0 none) testing).map (fun t => (t.path 0).lastTest) = some (some (.fail 255)) := by
  decide +kernel

/-! ### The rows: memory, supply, clock -/

/-- R171, R178: the snapshot is in the memory behind its marker. -/
theorem test_imageWritten : ((after (.saveImage .a 7) running).bind (after .imageWritten)).map (fun t => t.memory.marker) =
    some 0xA55A3CC3#32 := by decide +kernel
/-- R172. -/
theorem test_saveReadBackEnd :
    (((after (.saveImage .a 7) running).bind (after .imageWritten)).bind (after (.saveReadBackEnd false))).map
      (fun t => t.manager.image) = some (.valid 0#16) ∧
    (((after (.saveImage .a 7) running).bind (after .imageWritten)).bind (after (.saveReadBackEnd true))).map
      (fun t => t.manager.image) = some .invalid := by decide +kernel
/-- R18: with segments 3 and 6 disabled, the turns fall at 0, 250, 500, 750, 1000 and 1250 ms. -/
theorem test_imageLoadEnd :
    (after (.imageLoadEnd false) imaged).map (fun t =>
      (t.manager.image, allSegs.map (fun g => (t.line g).startUpAt))) =
      some (.valid 9#16, [some 0, some 250, none, some 500, some 750, none, some 1000, some 1250]) := by decide +kernel
/-- R175: an image that comes after the 800 ms is not loaded. -/
theorem test_imageLoadEnd_late :
    (after (.imageLoadEnd false) { imaged with timebase := 801 }).map (fun t => (t.manager.image, t.loadFailed)) =
      some (.invalid, true) := by decide +kernel
/-- R175: after a failed load the image in the memory stays unloadable through the next reset. -/
theorem test_loadTimeout_stays :
    ((((after .loadTimeout imaged).bind (after .resetPinAssert)).bind (after .resetPinRelease)).bind
      (after (.imageLoadEnd false))).map (fun t => t.manager.image) = some .invalid := by decide +kernel
/-- R175. -/
theorem test_loadTimeout : (after .loadTimeout State.reset).map (fun t => (t.supply.phase, t.timebase, t.manager.image)) =
    some (.running, 800, .invalid) := by decide +kernel
/-- R173. -/
theorem test_powerOn : (after .powerOn active).map (fun t => (t.supply.phase, t.supply.cause, (t.line 0).feed)) =
    some (.inReset, .powerOn, .off) := by decide +kernel
/-- R173, R174: a dip clears the clock. -/
theorem test_supplySenseLow :
    (after .supplySenseLow { running with clock := ⟨5#32, true, 1000⟩ }).map (fun t => (t.supply.cause, t.clock.seconds)) =
      some (.supplyDip, 0#32) := by decide +kernel
/-- R173: the hold-off runs 100 ms. -/
theorem test_supplySenseGood : (after .supplySenseGood inReset).map (fun t => t.supply.holdOff) = some (some 100) := by
  decide +kernel
/-- R175: the part leaves reset for LOADING. -/
theorem test_holdOffExpiry : ((after .supplySenseGood inReset).bind (after .holdOffExpiry)).map (fun t =>
    (t.supply.phase, t.manager.loadDue)) = some (.loading, some 900) := by decide +kernel
/-- R173, R174: the pin keeps the clock. -/
theorem test_resetPinAssert :
    (after .resetPinAssert { running with clock := ⟨5#32, true, 1000⟩ }).map (fun t =>
      (t.supply.cause, t.clock.seconds, t.clock.isSet)) = some (.resetPin, 5#32, true) := by decide +kernel
/-- R173. -/
theorem test_resetPinRelease : ((after .resetPinAssert running).bind (after .resetPinRelease)).map (fun t => t.supply.phase) =
    some .loading := by decide +kernel
/-- R174: the clock wraps. -/
theorem test_timeClockTick : (after .timeClockTick { running with clock := ⟨0xFFFFFFFF#32, true, 1000⟩ }).map (fun t =>
    t.clock.seconds) = some 0#32 := by decide +kernel

/-! ### The queue of rows -/

/-- The first row after reset is taken, and the row behind it stays. -/
theorem test_step_takes_front : (match step { State.reset with pending := [.loadTimeout, .timeClockTick] } with
    | .next t => (t.supply.phase, t.pending)
    | .fault _ => (.inReset, [])
    | .refused _ => (.inReset, [])) = (.running, [.timeClockTick]) := by decide +kernel

/-! ### Witnesses: for each statement with hypotheses, a state and operands that meet them, clause by clause -/

theorem witness_IdleStepLetsAMillisecondPass : running.pending = [] := by decide +kernel

theorem witness_HeldInResetOnlySupplyPinAndClockAct :
    inReset.supply.phase = .inReset ∧ (Instr.babble 0).actsInReset = false := by decide +kernel

/-- Link A of the offered call DOWN. -/
def aDown : State := modLink .a (fun r => { r with up := false, lossTimer := none }) offered

theorem creationExact_aDown : CreationExact aDown := by unfold CreationExact; decide +kernel

theorem witness_CommandOnADownLinkBringsItUp :
    (Instr.resume .a 7).command = some (.a, 7, .resume) ∧ aDown.supply.phase ≠ .inReset ∧ (aDown.link .a).up = false ∧
      (aDown.link .a).queue = [] := by decide +kernel

/-- LOADING with link A UP. -/
def loadingUp : State := modLink .a (fun r => { r with up := true }) State.reset

theorem witness_LoadingRefusesEveryOtherCommand :
    (Instr.setTime .a 7 0#32).command = some (.a, 7, .setTime) ∧ CommandType.setTime ≠ .readStatus ∧
      loadingUp.supply.phase = .loading ∧ (loadingUp.link .a).up = true ∧ postOf ⟨1, 17⟩ = none := by decide +kernel

theorem witness_LoadingRefusesEveryOtherCommand_operands :
    (Instr.setTime .a 7 0#32).faultFirst = False ∧ (Instr.readPost .a 7 ⟨1, 17⟩).faultFirst ∧
      ¬(Instr.readWindow .a 7 7).faultFirst ∧ (Instr.readWindow .a 7 8).faultFirst ∧ ¬(Instr.readClass .a 7 8).faultFirst ∧
      (Instr.unknownCommand .a 7).faultFirst :=
  ⟨rfl, rfl, show ¬8 ≤ 7 by decide, show 8 ≤ 8 by decide, show ¬8 < 8 by decide, trivial⟩

theorem witness_EveryCommandIsAnswered :
    (Instr.readStatus .a 7).command = some (.a, 7, .readStatus) ∧ running.supply.phase ≠ .inReset ∧
      (running.link .a).up = true := by decide +kernel

/-- A save of revision 4 in progress at a stage, the current revision 5. -/
def saving (stage : SaveStage) : State :=
  { running with manager := { running.manager with revision := 5#16, image := .saving, save := some ⟨running.tables, 4#16, stage⟩ } }

/-- The part RUNNING with a valid image. -/
def valid : State := { running with manager := { running.manager with image := .valid 0#16 } }

theorem witness_ReadStatusAnswersTheRegisters :
    (valid.supply.phase = .running ∧ valid.manager.image = .valid 0#16 ∧ (valid.link .a).up = true) ∧
      ((saving .writing).supply.phase = .running ∧ (saving .writing).manager.image = .saving ∧
        (saving .writing).manager.save.isSome = true) ∧
      running.manager.image = .invalid ∧
      (loadingUp.supply.phase = .loading ∧ loadingUp.supply.phase ≠ .inReset ∧ (loadingUp.link .a).up = true) := by
  decide +kernel

theorem witness_SetTimeAndLockSetTheirRegisters : running.serves .a ∧ running.serves .b := by decide +kernel

theorem creationExact_offered : CreationExact offered := by unfold CreationExact; decide +kernel

theorem witness_ReadsAnswerTheRecords :
    offered.serves .a ∧ callNumberOf 0 = none ∧ callNumberOf 33 = none ∧ callNumberOf 32 ≠ none ∧
      offered.lookup ⟨32, 5#16⟩ = none ∧ offered.lookup ⟨1, 4#16⟩ = none ∧ callNumberOf 1 = some 0 ∧
      (offered.call 0).map (fun r => (r.sequence, r.state.waiting)) = some (5#16, true) ∧
      ((owned .held).call 0).map (fun r => (r.sequence, r.state.owned)) = some (5#16, true) ∧
      postOf ⟨1, 1⟩ = some ⟨0, 0⟩ ∧ postOf ⟨8, 16⟩ = some ⟨7, 15⟩ ∧ postOf ⟨0, 1⟩ = none ∧ postOf ⟨9, 1⟩ = none ∧
      postOf ⟨1, 0⟩ = none ∧ postOf ⟨1, 17⟩ = none ∧ segmentOf 1 = some 0 ∧ segmentOf 8 = some 7 ∧
      segmentOf 0 = none ∧ segmentOf 9 = none := by decide +kernel

theorem witness_ReadClassAnswersTheEntry :
    (running.link .a).up = true ∧ running.supply.phase = .running ∧ (7 : EntryNo).val = 7 ∧ 8 < 9 ∧
      postOf ⟨8, 16⟩ = some ⟨7, 15⟩ ∧ (offered.lookup ref0).isSome = true ∧ (offered.link .a).up = true ∧
      offered.supply.phase = .running ∧ (loadingUp.link .a).up = true ∧ loadingUp.supply.phase = .loading ∧ 8 ≤ 8 := by
  decide +kernel

theorem witness_ReadWindowAnswersTheWindow :
    (running.link .b).up = true ∧ running.supply.phase = .running ∧ (7 : WindowNo).val = 7 ∧ 8 ≤ 8 ∧
      (loadingUp.link .a).up = true ∧ loadingUp.supply.phase = .loading ∧ 7 < 8 := by decide +kernel

theorem witness_ASaveWritesItsSnapshot :
    (running.serves .a ∧ running.manager.image ≠ .saving) ∧
      ((saving .writing).serves .a ∧ (saving .writing).manager.image = .saving) ∧
      ((saving .writing).supply.phase ≠ .inReset ∧ ((saving .writing).manager.save.map (·.stage)) = some .writing) ∧
      ((saving .readingBack).supply.phase ≠ .inReset ∧
        ((saving .readingBack).manager.save.map (·.stage)) = some .readingBack) ∧
      running.manager.save = none := by decide +kernel

/-- S1/01 configured as the greatest values allow, the structure lock set. -/
def fixedPost : PostConfig := ⟨1048575, .two, .median, .tunnel, some 65535, none⟩
def lockedPost : State :=
  { setPostConfig p0 (some fixedPost) running with manager := { running.manager with lock := true } }

theorem witness_legal_post : fixedPost.Legal := by unfold PostConfig.Legal; decide

theorem witness_PostWritesStoreAndResetTheLocation :
    (running.serves .a ∧ postOf ⟨1, 1⟩ = some p0 ∧ running.manager.lock = false) ∧
      (lockedPost.serves .a ∧ lockedPost.manager.lock = true ∧ lockedPost.postConfig p0 = some fixedPost ∧
        fixedPost.serial = (some 0#32 : Option Serial).filter (· ≠ 0#32)) := by decide +kernel

theorem witness_current : running.current none ∧ running.current (some 0#16) ∧ ¬running.current (some 1#16) := by
  refine ⟨fun _ h => (nomatch h), ?_, ?_⟩
  · intro r h
    exact (Option.some.inj h).symm
  · intro h
    exact absurd (h 1#16 rfl) (by decide +kernel)

theorem witness_WriteSegmentStoresClampedFields :
    segmentOf 1 = some 0 ∧ active.serves .a ∧ active.manager.lock = false ∧ (active.line 0).feed.inService = true ∧
      ((fed .off).serves .a ∧ ((fed .off).line 0).feed.powered = false) ∧
      ((fed .feedLost).serves .a ∧ ((fed .feedLost).line 0).feed = .feedLost) ∧
      ((fed .powering).serves .a ∧ ((fed .powering).line 0).feed = .powering) ∧
      (∀ r ∈ [none, some 9], let s := modLine 0 (fun u => { u with rePower := r, volts := 44 }) (fed .powering)
        (s.serves .a ∧ (s.line 0).feed = .powering ∧ (s.line 0).rePower = r) ∧
          ((s.line 0).volts ≤ (s.segmentConfig 0).turnOn ∧ 43 < (s.line 0).volts) ∧
          ((s.segmentConfig 0).turnOff ≤ (s.line 0).volts ∧ (s.line 0).volts < 45)) := by decide +kernel

theorem witness_EntryWritesStoreClampedFields :
    running.serves .a ∧ running.manager.lock = false ∧ 7 = (7 : Fin 8).val ∧ 1048575 ≤ 1048575 ∧ 255 ≤ 255 ∧ 23 ≤ 23 ∧
      (lockedWindow.serves .a ∧ lockedWindow.manager.lock = true ∧
        { Window.withoutImage with base := 49152 - 49152 % 2 ^ (10 + 3), sizeCode := 3,
                                   overflow := max 5 (min 120 Window.withoutImage.overflow) } =
          lockedWindow.tables.windows[(0 : WindowNo)] ∧
        49152 = (lockedWindow.tables.windows[(0 : WindowNo)]).base ∧
        Window.withoutImage.overflow = (lockedWindow.tables.windows[(0 : WindowNo)]).overflow) := by
  decide +kernel

/-- Link B's last valid message came 20 s ago under a link-loss time of 30 s. -/
def quietB : State :=
  { modLink .b (fun r => { r with lossTimer := some ⟨0, 30000⟩ }) running with timebase := 20000 }

theorem witness_WriteLinkMovesTheTimer :
    quietB.serves .a ∧ (quietB.link .b).up = true ∧
      ((replied .a 7 .writeLink (.done .empty) quietB).link .b).lossTimer = some ⟨0, 30000⟩ ∧
      0 + 1000 * 19 < quietB.timebase ∧ ¬(0 + 1000 * 20 < quietB.timebase) ∧
      (aDown.serves .b ∧ (aDown.link .a).up = false ∧ (aDown.link .a).lossTimer = none) := by decide +kernel

/-- A second call, of S1/02, in record 2. -/
def call1 : Call :=
  { call0 with sequence := 6#16, post := p1, state := .offered, offered := PerLink.both true }

/-- Two calls offered to both links. -/
def twoOffered : State :=
  modLink .b (fun r => { r with offers := 2 }) (modLink .a (fun r => { r with offers := 2 })
    (modPost p1 (fun r => { r with call := some ⟨1, 6#16⟩, hook := .off })
      { offered with calls := offered.calls.set 1 (some call1), created := [0, 1], nextSequence := 7#16 }))

/-- A property of the two records of `twoOffered` is one of every call in it. -/
theorem twoOffered_calls (P : CallNo → Call → Prop) (h0 : P 0 { call0 with state := .offered, offered := PerLink.both true })
    (h1 : P 1 call1) : ∀ n c, twoOffered.call n = some c → P n c := by
  have others : ∀ n : CallNo, n ≠ 0 → n ≠ 1 → twoOffered.call n = none := by decide +kernel
  have first : twoOffered.call 0 = some { call0 with state := .offered, offered := PerLink.both true } := by decide +kernel
  have second : twoOffered.call 1 = some call1 := by decide +kernel
  intro n c h
  by_cases e0 : n = 0
  · subst e0; rw [first] at h; cases h; exact h0
  · by_cases e1 : n = 1
    · subst e1; rw [second] at h; cases h; exact h1
    · rw [others n e0 e1] at h; cases h

theorem offersMatch_twoOffered : OffersMatch twoOffered where
  counted := by intro l; cases l <;> decide +kernel
  unoffered := by
    apply twoOffered_calls
    · intro h; exact absurd h (by decide)
    · intro h; exact absurd h (by decide)
  offered := twoOffered_calls _ (fun _ => .inl rfl) (fun _ => .inl rfl)
  takers := by
    have links : ∀ l : Link, (twoOffered.link l).up = true ∧ (twoOffered.link l).mode = .accepting := by
      intro l; cases l <;> decide +kernel
    intro n c l _ _
    exact ⟨(links l).1, by rw [(links l).2]; decide, fun _ => (links l).2⟩
  depth := by intro l; cases l <;> decide +kernel

theorem witness_WriteLinkMovesTheTimer_depth :
    twoOffered.serves .a ∧ CreationExact twoOffered ∧ OffersMatch twoOffered ∧
      (let held := twoOffered.waitingOrder.filter (fun x => x.2.state = .offered && x.2.offered.get .b)
       (held[0]?).isSome = true ∧ (held[1]?).map (·.1) = some 1) ∧ 0 < 1 ∧ 1 ≤ 1 := by
  refine ⟨by decide +kernel, ?_, offersMatch_twoOffered, by decide +kernel, by decide, by decide⟩
  unfold CreationExact; decide +kernel

/-- R109: a depth of 1 leaves the older call its offer and withdraws the younger one's. -/
theorem test_writeLink_depth : (after (.writeLink .a 7 none (.named .b) 1 3) twoOffered).map (fun t =>
    ((t.call 0).map (·.offered), (t.call 1).map (·.offered), told .b (.callWithdrawn ⟨1, 6#16⟩ p1 .depth) t)) =
    some (some (PerLink.both true), some ⟨true, false⟩, true) := by decide +kernel

theorem witness_AnswerAndDeclineRefusals :
    callNumberOf 33 = none ∧ channelOf 5 = none ∧ channelOf 0 = none ∧ channelOf 4 = some 3 ∧
      (offered.serves .a ∧ callNumberOf 32 ≠ none ∧ offered.lookup ⟨32, 5#16⟩ = none) ∧
      ((owned .held).lookup ref0).map (fun x => x.2.state.owned) = some true ∧
      (atHome.serves .b ∧ (atHome.lookup ref0).map (fun x => (x.2.state.owned, x.2.offered.get .b)) = some (false, false)) ∧
      (let s := modChannel .a 3 (fun c => { c with use := .reserved 1 .owner }) offered
       s.serves .a ∧ (s.lookup ref0).map (fun x => (x.2.state.owned, x.2.offered.get .a)) = some (false, true) ∧
         (s.channel .a 3).use ≠ .free) := by decide +kernel

theorem witness_OwnedCallRefusals :
    ((owned .held).serves .a ∧ callNumberOf 0 = none ∧ (owned .held).lookup ⟨2, 5#16⟩ = none) ∧
      ((owned .held).serves .b ∧ ((owned .held).lookup ref0).map (fun x => x.2.owner) = some (some .a)) ∧
      ((owned .lineLost).serves .a ∧ ((owned .lineLost).lookup ref0).map (fun x => (x.2.owner, x.2.state)) =
        some (some .a, .lineLost)) ∧
      (connected.serves .a ∧ (connected.lookup ref0).map (fun x => (x.2.owner, x.2.state)) = some (some .a, .connected)) ∧
      (offered.serves .a ∧ (offered.lookup ref0).map (fun x => (x.2.owner, x.2.joinedChannel)) = some (none, none)) ∧
      (let s := modChannel .b 0 (fun c => { c with use := .reserved 1 .owner }) connected
       s.serves .b ∧ (s.lookup ref0).map (fun x => (x.2.owner, x.2.state, x.2.joinedChannel)) =
           some (some .a, .connected, none) ∧ (s.link .b).mode ≠ .closed ∧ channelOf 1 = some 0 ∧
         (s.channel .b 0).use ≠ .free) := by decide +kernel

/-- Every call record in use. -/
def full : State :=
  { modPost p0 (fun r => { r with call := none }) active with
    calls := Vector.replicate 32 (some { call0 with post := p1 }), created := List.finRange 32 }

theorem witness_CallPostAndTestPostRefusals :
    postOf ⟨9, 1⟩ = none ∧ channelOf 5 = none ∧ postOf ⟨1, 1⟩ = some p0 ∧ channelOf 1 = some 0 ∧
      (let s := modLink .a (fun r => { r with mode := .draining }) active
       s.serves .a ∧ (s.link .a).mode ≠ .accepting) ∧
      (running.serves .a ∧ (running.link .a).mode = .accepting ∧ (running.line 0).feed.inService = false) ∧
      (let s := modPost p0 (fun r => { r with presence := .lost }) active
       s.serves .a ∧ ¬(s.line 0).feed.inService = false ∧ (s.post p0).presence ≠ .present) ∧
      (offered.serves .a ∧ (offered.post p0).presence = .present ∧ (offered.post p0).call ≠ none) ∧
      (testing.serves .a ∧ (testing.post p0).call = none ∧ (testing.path 0).test.map (·.addr) = some 0) ∧
      (let s := modChannel .a 0 (fun c => { c with use := .reserved 1 .owner }) active
       s.serves .a ∧ (s.post p0).call = none ∧ (s.channel .a 0).use ≠ .free) ∧
      (full.serves .a ∧ (full.post p0).call = none ∧ (full.post p0).hook ≠ .off ∧ (full.channel .a 0).use = .free ∧
        ∀ n, full.call n ≠ none) := by decide +kernel

theorem witness_HandoverFeedAndUnmuteRefusals :
    (let s := modLink .a (fun r => { r with mode := .closed }) running
     s.serves .a ∧ (s.link .a).mode = .closed) ∧
      (let s := modLink .b (fun r => { r with up := false }) running
       s.serves .a ∧ (s.link .a).mode ≠ .closed ∧ (s.link Link.a.other).up = false) ∧
      segmentOf 0 = none ∧ segmentOf 9 = none ∧ segmentOf 1 = some 0 ∧
      ((fed .locked).serves .a ∧ ((fed .locked).line 0).feed = .locked) ∧
      ((fed .active).serves .a ∧ ((fed .active).line 0).feed ≠ .locked) ∧ postOf ⟨1, 17⟩ = none ∧
      ((sweeping .statusNext).serves .a ∧ ((sweeping .statusNext).line p0.seg).feed = .isolating) ∧
      (active.serves .a ∧ (active.line p0.seg).feed ≠ .isolating ∧ (active.post p0).presence ≠ .muted) := by
  decide +kernel

theorem witness_WriteRefusals :
    running.serves .a ∧ postOf ⟨0, 1⟩ = none ∧ 1048575 < 1048576 ∧ 65535 < 65536 ∧ segmentOf 9 = none ∧ 8 ≤ 8 ∧
      255 < 256 ∧ 23 < 24 ∧ (7 : WindowNo).val = 7 ∧ (7 : EntryNo).val = 7 ∧ postOf ⟨8, 16⟩ = some ⟨7, 15⟩ ∧
      (lockedPost.serves .a ∧ lockedPost.manager.lock = true ∧
        (∀ old, lockedPost.postConfig p0 = some old →
          { old with serial := none } ≠ { (⟨0, .one, .left, .slip, none, none⟩ : PostConfig) with serial := none }) ∧
        min 4095 2501 ≠ (lockedPost.segmentConfig 0).turnaround) ∧
      (lockedWindow.serves .a ∧ lockedWindow.manager.lock = true ∧
        (lockedWindow.tables.windows[(0 : WindowNo)]).label ≠ (sameWindow 49152 1).label ∧ (sameWindow 49152 1).sizeCode < 8 ∧
        (sameWindow 49152 1).base ≤ 1048575 ∧ (sameWindow 49152 1).label ≤ 255) := by
  refine ⟨by decide +kernel, by decide, by decide, by decide, by decide, by decide, by decide, by decide, by decide,
    by decide, by decide, ⟨by decide +kernel, by decide +kernel, ?_, by decide +kernel⟩, by decide +kernel⟩
  intro old h
  have hold : some fixedPost = some old := (show lockedPost.postConfig p0 = some fixedPost by decide +kernel) ▸ h
  rw [← Option.some.inj hold]
  decide

theorem witness_WriteRefusals_codes :
    (∀ w, (Coded.other 4 : Coded CarriagewayCode) ≠ .named w) ∧ (∀ w, (Coded.other 0 : Coded Link) ≠ .named w) ∧
      ¬running.current (some 1#16) ∧ lockedPost.current none :=
  ⟨fun _ h => (nomatch h), fun _ h => (nomatch h), witness_current.2.2, fun _ h => nomatch h⟩

theorem witness_AnswerTakesTheCall :
    offered.serves .a ∧ channelOf 4 = some 3 ∧ channelOf 1 = some 0 ∧
      (offered.lookup ref0).map (fun x => (x.2.state.owned, x.2.offered.get .a, x.2.offered.get .b)) =
        some (false, true, true) ∧
      (offered.channel .a 3).use = .free ∧ offered.room Link.a.other 0 := by decide +kernel

/-- The offered call while a call of S1/02 holds the path. -/
def offeredBehind : State := modPath 0 (fun q => { q with holder := .call ⟨1, 9#16⟩ }) offered

theorem witness_AnswerTakesTheCall_path :
    ((offered.lookup ref0).map (fun x => (x.2.state, x.2.lineDown, x.2.pathHeld)) = some (.offered, false, false) ∧
        (offered.path 0).holder = .none ∧ (offered.path 0).test = none ∧ (offered.line 0).feed = .active ∧
        (offered.post p0).presence = .present ∧ offered.requests = []) ∧
      (offeredBehind.serves .a ∧ (offeredBehind.lookup ref0).map (fun x => (x.2.state, x.2.offered.get .a)) =
          some (.offered, true) ∧ (offeredBehind.path 0).holder = .call ⟨1, 9#16⟩ ∧ (offeredBehind.path 0).test = none ∧
        (replied .a 7 .answer (.done .empty) offeredBehind).room .a 0) := by decide +kernel

theorem witness_DeclineMarksTheCall :
    (offered.serves .a ∧ (offered.lookup ref0).map (fun x => (x.2.state.owned, x.2.offered.get .a, x.2.offered.get .b)) =
        some (false, true, true) ∧ offered.taking Link.a.other = true) ∧
      (atHome.serves .a ∧ (atHome.lookup ref0).map (fun x => (x.2.home, x.2.phase)) = some (some .a, some .home)) := by
  decide +kernel

/-- The HELD call of link A while a call of S1/02 holds the path. -/
def heldBehind : State := modPath 0 (fun q => { q with holder := .call ⟨1, 9#16⟩ }) (owned .held)

theorem witness_HoldAndRetrieveMoveTheCall :
    (connected.serves .a ∧ (connected.lookup ref0).map (fun x => (x.2.owner, x.2.state, x.2.pathHeld)) =
        some (some .a, .connected, true) ∧ (connected.post p0).presence = .present) ∧
      ((owned .held).serves .a ∧ ((owned .held).lookup ref0).map (fun x => (x.2.owner, x.2.state, x.2.pathHeld)) =
          some (some .a, .held, false) ∧ ((owned .held).path 0).holder = .none ∧ ((owned .held).path 0).test = none ∧
        ((owned .held).line 0).feed = .active ∧ (owned .held).requests = []) ∧
      (heldBehind.serves .a ∧ (heldBehind.path 0).holder = .call ⟨1, 9#16⟩ ∧ (heldBehind.path 0).test = none ∧
        (replied .a 7 .retrieve (.done .empty) heldBehind).room .a 0) := by decide +kernel

theorem creationExact_held : CreationExact (owned .held) := by unfold CreationExact; decide +kernel

/-- S1/02 waits in the pending list while link A's call of S1/01 is CONNECTED. -/
def behind : State :=
  modPost p1 (fun r => { r with pending := true }) { connected with pendingList := [⟨p1, 3#32, ⟨.default, 100⟩⟩] }

/-- Link A drains with the CONNECTED call left to it, three already given up. -/
def draining : State := modLink .a (fun r => { r with mode := .draining, transfers := 3 }) connected

theorem witness_ReleaseFreesTheCall :
    (connected.serves .a ∧ (connected.lookup ref0).map (fun x => (x.2.owner, x.2.ownerChannel)) =
        some (some .a, some 0) ∧ connected.pendingList = []) ∧
      ((joined.lookup ref0).map (fun x => x.2.joinedChannel) = some (some 0)) ∧
      (behind.serves .a ∧ (behind.lookup ref0).map (fun x => x.2.owner) = some (some .a) ∧
        behind.pendingList = [⟨p1, 3#32, ⟨.default, 100⟩⟩] ∧ (behind.post p1).presence = .present) ∧
      (draining.serves .a ∧ draining.lookup ref0 = some (0, connectedCall) ∧ draining.ownedBy .a = [(0, connectedCall)] ∧
        (draining.link .a).mode = .draining ∧ (draining.link .b).up = true) := by decide +kernel

/-- R145: the RELEASE of its last call ends the drain. -/
theorem test_release_ends_drain : (after (.release .a 7 ref0) draining).map (fun t =>
    ((t.link .a).mode, told .b (.handoverDone .a .finish 3) t)) = some (.closed, true) := by decide +kernel

theorem witness_JoinAndLeaveMoveTheJoinedChannel :
    (connected.serves .b ∧ channelOf 4 = some 3 ∧ (connected.lookup ref0).map (fun x => (x.2.owner, x.2.state, x.2.joinedChannel)) =
        some (some Link.b.other, .connected, none) ∧ (connected.link .b).mode ≠ .closed ∧
        (connected.channel .b 3).use = .free) ∧
      (joined.serves .b ∧ (joined.lookup ref0).map (fun x => (x.2.owner, x.2.joinedChannel)) =
        some (some Link.b.other, some 0)) := by decide +kernel

theorem witness_CallPostCreatesACallback :
    active.serves .b ∧ postOf ⟨1, 2⟩ = some p1 ∧ channelOf 4 = some 3 ∧ (active.link .b).mode = .accepting ∧
      (active.line p1.seg).feed.inService = true ∧ (active.post p1).presence = .present ∧
      (active.post p1).call = none ∧ (active.post p1).pending = false ∧ (active.post p1).hook ≠ .off ∧
      (active.path p1.seg).test = none ∧ (active.channel .b 3).use = .free ∧ active.call 0 = none ∧
      (∀ m : CallNo, m < 0 → active.call m ≠ none) := by decide +kernel

theorem witness_TestPostTakesOrAwaitsThePath :
    (active.serves .a ∧ postOf ⟨1, 1⟩ = some p0 ∧ (active.line 0).feed.inService = true ∧
        (active.post p0).presence = .present ∧ (active.post p0).call = none ∧ (active.post p0).pending = false ∧
        (active.path 0).test = none ∧ (active.path 0).holder = .none ∧ (active.line 0).feed = .active ∧
        active.callRequests 0 = []) ∧
      (connected.serves .a ∧ postOf ⟨1, 2⟩ = some p1 ∧ (connected.post p1).presence = .present ∧
        (connected.post p1).call = none ∧ (connected.path 0).test = none ∧ (connected.path 0).holder ≠ .none) := by
  decide +kernel

theorem witness_HandoverFinishStartsADrain :
    (connected.serves .a ∧ (connected.link Link.a.other).up = true ∧ (connected.link Link.a.other).mode = .accepting ∧
        (connected.link .a).mode = .accepting ∧ connected.ownedBy .a ≠ []) ∧
      (active.serves .a ∧ active.ownedBy .a = []) ∧
      (let s := modLink .a (fun r => { r with mode := .draining }) connected
       s.serves .a ∧ (s.link .a).mode = .draining ∧ (s.link Link.a.other).mode = .accepting) := by decide +kernel

theorem witness_HandoverImmediateGivesEveryCallUp :
    (connected.serves .a ∧ (connected.link Link.a.other).up = true ∧ (connected.link Link.a.other).mode = .accepting ∧
        (connected.link .a).mode ≠ .closed ∧ (connected.link .a).transfers ≤ 255) ∧
      (joined.call 0).map (fun c => (c.owner, c.state.owned, c.joinedChannel)) = some (some .a, true, some 0) := by
  decide +kernel

theorem creationExact_connected : CreationExact connected ∧ CreationExact joined := by
  unfold CreationExact; decide +kernel

theorem witness_ResumeFillsTheLink :
    running.serves .a ∧ (running.link .a).mode = .accepting ∧
      (let s := modLink .a (fun r => { r with mode := .closed }) offered
       s.serves .a ∧ (s.link .a).mode ≠ .accepting) := by decide +kernel

theorem witness_LinkLossGivesEveryCallUp :
    (joined.supply.phase ≠ .inReset ∧ (joined.link .a).up = true ∧ (joined.link .a).lossTimer = some ⟨0, 3000⟩) ∧
      (draining.supply.phase ≠ .inReset ∧ (draining.link .a).up = true ∧ (draining.link .a).lossTimer = some ⟨0, 3000⟩ ∧
        (draining.link .a).mode = .draining ∧ (draining.link Link.a.other).up = true ∧
        (draining.link .a).transfers ≤ 255) := by
  decide +kernel

theorem witness_FeedSwitchesTheSegment :
    segmentOf 1 = some 0 ∧ segmentOf 8 = some 7 ∧
      (∀ f ∈ [FeedState.off, .powering, .active, .feedLost, .tripped, .locked],
        (fed f).serves .a ∧ ((fed f).line 0).feed = f) ∧
      FeedState.powering.powered = true ∧ FeedState.active.inService = true := by decide +kernel

theorem witness_UnmuteRequestsTheOrder :
    postOf ⟨1, 1⟩ = some p0 ∧
      ∀ f ∈ [FeedState.active, .off], ∀ tempo ∈ [Tempo.normal, .economy], ∀ queue ∈ [[], [⟨0, .echoOff⟩]],
        let s := modPoll 0 (fun q => { q with tempo := tempo, queue := queue })
          (modPost p0 (fun r => { r with presence := .muted }) (fed f))
        s.serves .a ∧ (s.line p0.seg).feed = f ∧ f ≠ .isolating ∧ (s.post p0).presence = .muted ∧
          (s.poll p0.seg).tempo = tempo ∧ (s.poll p0.seg).queue = queue := by
  decide +kernel

theorem witness_FeedVoltageEventsMoveTheSegment :
    active.supply.phase ≠ .inReset ∧ 37 < (active.segmentConfig 0).turnOff ∧ (active.segmentConfig 0).turnOff ≤ 38 ∧
      (active.segmentConfig 0).turnOn < 45 ∧ (active.line 0).feed.inService = true ∧
      (let s := modLine 0 (fun u => { u with rePower := some 2000 }) (fed .powering)
       (s.line 0).feed = .powering ∧ (s.line 0).rePower ≠ none) ∧
      (((fed .off).line 0).feed.inService = false ∧ ((fed .off).line 0).feed ≠ .powering) ∧
      ((fed .feedLost).line 0).feed = .feedLost ∧ ((fed .powering).line 0).feed = .powering := by decide +kernel

theorem witness_FilterExpiryLosesTheFeed :
    let s := modLine 0 (fun u => { u with underFilter := some 200 }) connected
    s.supply.phase ≠ .inReset ∧ (s.line 0).underFilter = some 200 ∧ (s.line 0).feed.inService = true ∧
      (connected.line 0).underFilter = none := by decide +kernel

theorem callPartsMatch_connected : CallPartsMatch connected := by
  have posts : ∀ p : PostId, p ≠ p0 → (connected.post p).call = none ∧ (connected.post p).pending = false := by
    intro ⟨g, a⟩
    revert g a
    decide +kernel
  have at0 : (connected.post p0).call = some ⟨0, 5#16⟩ ∧ (connected.post p0).pending = false := by decide +kernel
  have calls : ∀ n : CallNo, n ≠ 0 → connected.call n = none := by decide +kernel
  have call : (connected.call 0).map (fun c => (c.post, c.sequence)) = some (p0, 5#16) := by decide +kernel
  have empty : connected.pendingList = [] := by decide +kernel
  have waits : ∀ p, (connected.post p).pending = false := by
    intro p
    by_cases h : p = p0
    · rw [h]; exact at0.2
    · exact (posts p h).2
  refine ⟨?_, ?_, ?_, ?_, ?_⟩
  · intro n c h
    by_cases hn : n = 0
    · subst hn
      rw [h] at call
      have e := Option.some.inj call
      rw [show c.post = p0 from congrArg Prod.fst e, at0.1, Call.ref, show c.sequence = 5#16 from congrArg Prod.snd e]
    · rw [calls n hn] at h
      exact nomatch h
  · intro p r h
    by_cases hp : p = p0
    · subst hp
      rw [at0.1] at h
      cases Option.some.inj h
      cases hc : connected.call 0 with
      | none => rw [hc] at call; exact nomatch call
      | some c =>
        rw [hc] at call
        have e := Option.some.inj call
        exact ⟨c, rfl, congrArg Prod.fst e, congrArg Prod.snd e⟩
    · rw [(posts p hp).1] at h
      exact nomatch h
  · intro p
    rw [waits p, empty]
    exact ⟨fun h => (nomatch h), fun h => nomatch h⟩
  · rw [empty]
    exact List.nodup_nil
  · intro p h
    rw [waits p] at h
    exact nomatch h

theorem witness_OverCurrentTripsTheSegment :
    (fed .off).supply.phase ≠ .inReset ∧ ((fed .off).line 0).feed.powered = false ∧
      ((fed .active).line 0).feed.inService = true ∧ ((fed .powering).line 0).feed = .powering ∧
      ((fed .feedLost).line 0).feed = .feedLost := by decide +kernel

theorem witness_FeedTimersSwitchOnAndDiscover :
    (let s := modLine 0 (fun u => { u with rePower := some 2000 }) (fed .powering)
     s.supply.phase ≠ .inReset ∧ (s.line 0).feed = .powering ∧ (s.line 0).rePower = some 2000) ∧
      (let s := modLine 0 (fun u => { u with retry := some 5000 }) (fed .tripped)
       s.supply.phase ≠ .inReset ∧ (s.line 0).feed = .tripped ∧ (s.line 0).retry = some 5000) ∧
      (let s := modLine 7 (fun u => { u with startUp := true, startUpAt := some 1250 }) running
       s.supply.phase ≠ .inReset ∧ (s.line 7).feed = .off ∧ (s.line 7).startUp = true ∧
         (s.line 7).startUpAt = some 1250) ∧
      (running.line 0).rePower = none ∧ (running.line 0).retry = none ∧ (running.line 0).startUp = false := by
  decide +kernel

/-- An ACTIVE segment with RING_ON queued for S1/02, its last slot from the queue or not. -/
def queued (last : Bool) : State :=
  modPoll 0 (fun q => { q with queue := [⟨1, .ringOn⟩], lastQueued := last }) active

/-- An ACTIVE segment in ECONOMY between two passes. -/
def economy : State := modPoll 0 (fun q => { q with tempo := .economy }) active

/-- An ACTIVE segment at the last address of a pass, with no call on it. -/
def passEnd : State := modPoll 0 (fun q => { q with covered := 15 }) active

/-- R35: on battery the pass that ends takes the segment to ECONOMY, its first pass 10 s on; off battery it does not. -/
theorem test_economy_entered :
    (after (.pollSlot 0 false true) passEnd).map (fun t => ((t.poll 0).tempo, (t.poll 0).economyDue)) =
        some (.economy, some 10000) ∧
      (after (.pollSlot 0 false false) passEnd).map (fun t => (t.poll 0).tempo) = some .normal := by decide +kernel

theorem witness_PollSlotSendsTheChosenOrder_economy :
    (passEnd.poll 0).sent = none ∧ (passEnd.line 0).feed = .active ∧ (passEnd.poll 0).queue = [] ∧
      (passEnd.poll 0).discovery = none ∧ (passEnd.poll 0).tempo = .normal ∧ 16 ≤ (passEnd.poll 0).covered + 1 ∧
      ¬16 ≤ (active.poll 0).covered + 1 ∧ (∀ a, (passEnd.post ⟨0, a⟩).call = none) ∧ (passEnd.path 0).holder = .none ∧
      (passEnd.post ⟨0, (passEnd.poll 0).sweepPosition⟩).presence ≠ .muted := by decide +kernel

theorem witness_PollSlotSendsTheChosenOrder :
    (active.supply.phase ≠ .inReset ∧ (active.poll 0).sent = none ∧ (active.line 0).feed = .active ∧
        (active.poll 0).queue = [] ∧ (active.poll 0).discovery = none ∧ (active.poll 0).tempo = .normal ∧
        (active.post ⟨0, (active.poll 0).sweepPosition⟩).presence ≠ .muted) ∧
      (((queued false).poll 0).queue = [⟨1, .ringOn⟩] ∧ ((queued false).poll 0).lastQueued = false) ∧
      (((queued true).poll 0).lastQueued = true ∧ ((queued true).poll 0).tempo = .normal) ∧
      ((economy.poll 0).queue = [] ∧ (economy.poll 0).tempo = .economy ∧ (economy.poll 0).economyPass = false ∧
        (economy.line 0).feed = .active) ∧
      (let s := modPoll 0 (fun q => { q with discovery := some 15 }) (fed .discovery)
       (s.line 0).feed = .discovery ∧ (s.poll 0).discovery = some 15 ∧ (s.post ⟨0, 15⟩).presence ≠ .muted) ∧
      (∀ i ∈ [IsolationStep.muteAllNext, .unmuteNext, .statusNext, .muteNext],
        ((sweeping i).line 0).feed = .isolating ∧ ((sweeping i).poll 0).isolation = some i ∧
          ((sweeping i).poll 0).isolationPosition = some 0 ∧ ((sweeping i).poll 0).sent = none ∧
          ((sweeping i).post p0).presence ≠ .muted) ∧
      ((fed .powering).line 0).feed.inService = false := by decide +kernel

/-- The good report of S1/01, on-hook or off-hook, with serial 71. -/
def good (offHook : Bool) : List Byte := reportBytes 71#32 (if offHook then 0x02#8 else 0x00#8) []

theorem decode_good : decodeReport 0 (good false) = some ⟨71#32, .basic, false, []⟩ ∧
    decodeReport 0 (good true) = some ⟨71#32, .basic, true, []⟩ := by decide +kernel

/-- S1/01 configured without a serial. -/
def learning : State := setPostConfig p0 (some fixedPost) active

theorem witness_AcceptedReportUpdatesThePost :
    ((asked .status false active).supply.phase ≠ .inReset ∧ 65535 ≤ 65535 ∧
        ((asked .status false active).poll 0).sent = some ⟨0, .status, false, false⟩) ∧
      (let s := asked .status false (modPost p0 (fun r => { r with presence := .lost }) active)
       (s.poll 0).sent = some ⟨0, .status, false, false⟩ ∧ (s.post p0).presence = .lost ∧ s.room .a 0) ∧
      (let s := asked .status false learning
       (s.poll 0).sent = some ⟨0, .status, false, false⟩ ∧ s.postConfig p0 = some fixedPost ∧ fixedPost.serial = none ∧
         (71#32 : Serial) ≠ 0#32) ∧
      (asked .status false active).postConfig p0 = none := by decide +kernel

/-- A line test of S1/01 STARTING. -/
def starting : State := modPath 0 (fun q => { q with test := some ⟨0, .a, .starting⟩, holder := .test }) active

/-- The discovery sweep settles an address whose STATUS is out. -/
def discovering (a : Addr) : State :=
  modPoll 0 (fun q => { q with discovery := some a, sent := some ⟨a, .status, false, false⟩ }) (fed .discovery)

theorem decode_last : (decodeReport 15 (let body := [0x10#8] ++ bytes32 71#32 ++ [0x00#8, 0x00#8]
    body ++ bytes16 (crc16 body))).isSome = true := by decide +kernel

theorem witness_AcceptedReportUpdatesThePost_answers :
    (let s := asked .select true granted
     (s.poll 0).sent = some ⟨0, .select, true, false⟩ ∧ (s.line 0).feed = .active ∧ (s.post p0).presence = .present ∧
       (s.post p0).hook = .off ∧ (s.post p0).call = some ⟨0, 5#16⟩ ∧
       (s.call 0).map (fun c => (c.sequence, c.state)) = some (5#16, .answered) ∧
       (s.path 0).grant = some ⟨⟨0, 5#16⟩, false⟩) ∧
      (let s := modPoll 0 (fun q => { q with sent := some ⟨0, .select, true, true⟩ }) granted
       (s.poll 0).sent.map (·.overtaken) = some true ∧ (s.path 0).grant = some ⟨⟨0, 5#16⟩, false⟩) ∧
      (let s := asked .echoOn true starting
       (s.poll 0).sent = some ⟨0, .echoOn, true, false⟩ ∧ (s.post p0).presence = .present ∧ (s.post p0).hook = .on ∧
         (s.path 0).test = some ⟨0, .a, .starting⟩) ∧
      (∀ a, ((discovering a).line 0).feed = .discovery ∧ ((discovering a).poll 0).discovery = some a ∧
        ((discovering a).poll 0).sent = some ⟨a, .status, false, false⟩) := by decide +kernel

theorem witness_MissesCountTowardLost :
    (active.supply.phase ≠ .inReset ∧ (active.poll 0).sent = none) ∧
      ((asked .status false active).poll 0).sent = some ⟨0, .status, false, false⟩ ∧ 65535 < 65536 ∧
      decodeReport 0 [] = none ∧
      ((asked .mute false active).poll 0).sent = some ⟨0, .mute, false, false⟩ ∧
      (let s := asked .select true active
       (s.poll 0).sent = some ⟨0, .select, true, false⟩ ∧ (s.post p0).missed < 2 ∧ (s.post p0).presence = .present ∧
         (s.line 0).feed = .active ∧ (s.poll 0).queue = []) ∧
      (let s := asked .status false (modPost p0 (fun r => { r with missed := 2 }) active)
       2 ≤ (s.post p0).missed ∧ (s.post p0).presence = .present ∧ s.room .a 0 ∧ s.room .b 0) ∧
      (∀ x ∈ [Presence.unknown, .muted],
        let s := asked .unmute true (modPost p0 (fun r => { r with presence := x, missed := 2 }) active)
        2 ≤ (s.post p0).missed ∧ (s.post p0).presence = x ∧ x ≠ .lost ∧ s.room .a 0) := by decide +kernel

/-- A waiting call whose post answers. -/
def hangingUp : State := asked .status false (withCall { call0 with offered := PerLink.both false } .off active)

theorem witness_HookReportsMakeAndEndCalls :
    (let s := asked .status false active
     s.supply.phase ≠ .inReset ∧ (s.poll 0).sent = some ⟨0, .status, false, false⟩ ∧
       (s.line 0).feed.inService = true ∧ (s.post p0).presence = .present ∧ (s.post p0).hook ≠ .off ∧
       (s.post p0).barred = false ∧ (s.post p0).call = none ∧ (s.post p0).pending = false ∧ (s.path 0).test = none ∧
       s.call 0 = none ∧ (∀ m : CallNo, m < 0 → s.call m ≠ none) ∧ (s.line 0).feed = .active) ∧
      (let s := asked .status false full
       (s.post p0).hook ≠ .off ∧ (s.post p0).call = none ∧ (s.post p0).presence = .present ∧
         ∀ n, s.call n ≠ none) ∧
      ((hangingUp.post p0).hook = .off ∧ hangingUp.pendingList = [] ∧ (hangingUp.post p0).call = some ⟨0, 5#16⟩ ∧
        (hangingUp.call 0).map (fun c => (c.sequence, c.post, c.state)) = some (5#16, p0, .queued)) := by decide +kernel

/-- The STATUS of S1/01 is out while its post is LOST and its call in a state. -/
def returning (st : CallState) : State :=
  asked .status false (modPost p0 (fun r => { r with presence := .lost, hook := .unknown })
    (modCall 0 (fun c => { c with lineDown := true }) (owned st)))

/-- The STATUS of a post whose call waits with a weight under the default class weight. -/
def escalating : State := { hangingUp with tables := { hangingUp.tables with defaults := ⟨.a, 150, 20⟩ } }

theorem witness_HookReportsMakeAndEndCalls_owned :
    let s := asked .status false connected
    (s.post p0).presence = .present ∧ (s.post p0).hook = .off ∧ s.pendingList = [] ∧
      (s.post p0).call = some (connectedCall.ref 0) ∧ s.call 0 = some connectedCall ∧ connectedCall.post = p0 ∧
      connectedCall.state = .connected := by decide +kernel

/-- The STATUS of a post whose callback rings, its path free or held by another call. -/
def calledBack (h : Holder) : State := modPath 0 (fun q => { q with holder := h }) (asked .status false ringing)

theorem witness_HookReportsMakeAndEndCalls_callback :
    ∀ h ∈ [Holder.none, .call ⟨1, 9#16⟩],
      ((calledBack h).post p0).presence = .present ∧ ((calledBack h).post p0).hook ≠ .off ∧
        ((calledBack h).post p0).barred = false ∧ ((calledBack h).path 0).test = none ∧
        ((calledBack h).post p0).call = some ⟨0, 5#16⟩ ∧
        ((calledBack h).call 0).map (fun c => (c.sequence, c.post, c.state)) = some (5#16, p0, .ringing) ∧
        ((calledBack h).call 0).map (fun c => (c.owner, c.pathHeld)) = some (some .a, false) ∧
        ((calledBack h).path 0).holder = h ∧ ((calledBack h).line 0).feed = .active ∧ (calledBack h).requests = [] := by
  decide +kernel

theorem witness_HookReportsMakeAndEndCalls_lines :
    ((escalating.post p0).presence = .present ∧ (escalating.post p0).hook = .off ∧ (escalating.line 0).feed = .active ∧
        (escalating.call 0).map (fun c => (c.kind, c.state, c.weight)) = some (.emergency, .queued, 100) ∧
        100 < (classResult escalating.tables.defaults.weight (escalating.evaluate p0 .basic [])).weight ∧
        ¬100 < (classResult hangingUp.tables.defaults.weight (hangingUp.evaluate p0 .basic [])).weight) ∧
      (∀ st ∈ [CallState.lineLost, .queued],
        ((returning st).post p0).presence ≠ .present ∧ ((returning st).post p0).call = some ⟨0, 5#16⟩ ∧
          ((returning st).call 0).map (fun c => (c.sequence, c.post, c.state, c.pathHeld)) = some (5#16, p0, st, false) ∧
          (returning st).pendingList = [] ∧ ((returning st).line 0).feed.inService = true ∧
          ((returning st).poll 0).sent = some ⟨0, .status, false, false⟩) := by decide +kernel

/-- Every post of segment 1 MUTED while the sweep listens after MUTE_ALL. -/
def allMuted : State := modPostsOf 0 (fun r => { r with presence := .muted }) (sweeping (.muteAllListen 240))

/-- The sweep listens after MUTE to the last address. -/
def lastMuted : State := modPoll 0 (fun q => { q with isolationPosition := some 15 }) (sweeping (.muteListen 240))

theorem witness_BabbleIsIsolated :
    ((active.line 0).feed = .active ∧ active.supply.phase ≠ .inReset) ∧ ((fed .discovery).line 0).feed = .discovery ∧
      ((fed .off).line 0).feed ≠ .discovery ∧ ((fed .off).line 0).feed ≠ .active ∧
      (∀ i ∈ [IsolationStep.muteAllListen 240, .unmuteListen 240, .muteListen 240],
        ((sweeping i).line 0).feed = .isolating ∧ ((sweeping i).poll 0).isolation = some i) ∧
      ((sweeping (.muteAllListen 240)).post ⟨0, 0⟩).presence ≠ .muted ∧
      ((allMuted.line 0).feed = .isolating ∧ (allMuted.poll 0).isolation = some (.muteAllListen 240) ∧
        ∀ a, (allMuted.post ⟨0, a⟩).presence = .muted) ∧
      (((sweeping (.muteListen 240)).poll 0).isolationPosition = some 0 ∧
        ((sweeping (.muteListen 240)).post ⟨0, 0⟩).presence = .present ∧
        ((sweeping (.muteListen 240)).post ⟨0, 1⟩).presence ≠ .muted) ∧
      ((lastMuted.poll 0).isolationPosition = some 15 ∧ (lastMuted.poll 0).isolation = some (.muteListen 240) ∧
        ∀ b : Addr, 15 < b → (lastMuted.post ⟨0, b⟩).presence = .muted) := by decide +kernel

theorem witness_TempoAndCarrierEvents :
    active.supply.phase ≠ .inReset ∧ (active.line 0).feed = .active ∧ ((fed .off).line 0).feed ≠ .active ∧
      (let s := modPoll 0 (fun q => { q with economyDue := some 10000 }) economy
       (s.poll 0).tempo = .economy ∧ (s.poll 0).economyDue = some 10000) ∧ (active.poll 0).tempo = .normal := by
  decide +kernel

theorem witness_AgeingAndOverflowActOnWaitingCalls :
    offered.supply.phase ≠ .inReset ∧
      (offered.call 0).map (fun c => (c.ageing, c.state.waiting)) = some (some 0, true) ∧
      (atHome.call 0).map (fun c => (c.overflowAt, c.phase, c.state)) = some (some 20000, some .home, .offered) ∧
      (offered.call 0).map (·.overflowAt) = some none ∧
      ((owned .held).call 0).map (fun c => (c.ageing, c.state.owned)) = some (none, true) ∧ running.call 31 = none := by
  decide +kernel

theorem creationExact_atHome : CreationExact atHome := by unfold CreationExact; decide +kernel

theorem witness_RingCadenceAndDeadline :
    ringing.supply.phase ≠ .inReset ∧ ringing.pendingList = [] ∧
      (ringing.call 0).map (fun c => (c.state, c.cadence, c.ringDeadline)) =
        some (.ringing, some ⟨0, 0, 40, 20, true⟩, some 60000) ∧
      (ringing.call 0).map (fun c => (c.owner, c.ownerChannel)) = some (some .a, some 0) ∧
      0 < (ringing.segmentConfig 0).ringOnTime ∧ (ringing.line 0).feed.inService = true ∧
      (owned .held).call 0 ≠ none ∧ ((owned .held).call 0).map (·.state) ≠ some .ringing := by decide +kernel

theorem witness_TestComparisonEndsTheTest :
    (testing.supply.phase ≠ .inReset ∧ (testing.path 0).test = some ⟨0, .a, .running⟩ ∧
        (testing.line 0).feed.inService = true ∧ testing.callRequests 0 = []) ∧
      (active.path 0).test = none := by decide +kernel

theorem witness_FramesExchangeSamplesAndBytes :
    running.supply.phase ≠ .inReset ∧ (running.link .a).assembly = [] ∧
      scan [0x3C#8].length [0x3C#8] = ([], []) ∧ scan [0xC5#8].length [0xC5#8] = ([], [0xC5#8]) ∧
      (running.link .a).queue = [] ∧ (running.channel .a 0).use = .free ∧
      (((owned .held).channel .a 0).use = .reserved 0 .owner ∧
        ((owned .held).call 0).map (·.state) = some .held) ∧
      ((connected.channel .a 0).use = .connected 0 .owner ∧
        (connected.call 0).map (fun c => (c.state, c.pathHeld)) = some (.connected, true)) ∧
      (running.framed.get .a = false ∧ running.framed.get Link.a.other = false) ∧
      (let s := { running with framed := ⟨false, true⟩ }
       s.framed.get .a = false ∧ s.framed.get Link.a.other ≠ false) ∧
      ((connected.path 0).holder = .call ⟨0, 5#16⟩ ∧ connected.callOf ⟨0, 5#16⟩ = some connectedCall ∧
        connectedCall.owner = some .a) ∧
      ((granted.path 0).holder = .call ⟨0, 5#16⟩ ∧ (granted.callOf ⟨0, 5#16⟩).map (·.state) = some .answered) ∧
      (let s := modPath 0 (fun q => { q with holdTone := some 1599 })
         (modCall 0 (fun c => { c with state := .transferring }) connected)
       (s.path 0).holder = .call ⟨0, 5#16⟩ ∧ (s.callOf ⟨0, 5#16⟩).map (·.state) = some .transferring ∧
         (s.path 0).holdTone = some 1599) ∧
      ((testing.path 0).holder = .test ∧ (testing.path 0).signal = some ⟨0x01#8, 0⟩) ∧
      (let s := enqueue .a (.notice running.startedNotice) running
       (s.link .a).queue = [] ++ .notice running.startedNotice :: [] ∧
         (Block.notice running.startedNotice).isStarted = true ∧
         1 < (Block.notice running.startedNotice).bytes.length) := by decide +kernel

theorem witness_LoadingEndsWithTheImageOrEmpty :
    State.reset.supply.phase = .loading ∧ imaged.supply.phase = .loading ∧
      (imaged.memory.marker = 0xA55A3CC3#32 ∧ imaged.memory.size = imageSize ∧ imaged.memory.crcGood = true ∧
        imaged.loadFailed = false ∧ imaged.manager.loadDue = some 800 ∧ imaged.timebase ≤ 800) ∧
      running.supply.phase ≠ .loading := by decide +kernel

/-- The supply is back and the hold-off runs, the RESET pin low or not. -/
def holding (pin : Bool) : State :=
  { inReset with supply := { inReset.supply with senseLow := false, holdOff := some 100, pinLow := pin } }

theorem witness_SupplyAndPinResetThePart :
    running.supply.phase ≠ .inReset ∧ inReset.supply.phase = .inReset ∧ inReset.supply.senseLow = true ∧
      (∀ pin, (holding pin).supply.holdOff = some 100 ∧ (holding pin).supply.phase = .inReset ∧
        (holding pin).supply.senseLow = false ∧ (holding pin).supply.pinLow = pin) ∧
      running.supply.holdOff = none := by decide +kernel

theorem witness_FilterMovesTowardTheSample :
    (65535 ≤ 65535 ∧ 0 ≤ 65535) ∧ (∀ x ∈ [100, 180, 65535], 100 ≤ x ∧ x ≤ 65535) ∧
      rangeSample 65535 0 1500 = .distance 65535 true := by decide

/-- An enabled, true, reporting CALL entry of weight 190. -/
def fire : ClassEntry := { ClassEntry.withoutImage with enabled := true, reports := true, weight := 190 }

theorem witness_WaitingOrderAndClassResult :
    (fire.reports = true ∧ fire.kind = .call) ∧
      [((1 : EntryNo), fire, true), (2, fire, true)] = [] ++ (1, fire, true) :: [(2, fire, true)] := by decide

theorem invariants_running :
    TripsLegal active ∧ SomeAccepting active ∧ ResetHeld active ∧ OwnersMatch connected ∧ CreationExact connected := by
  unfold TripsLegal SomeAccepting ResetHeld
  refine ⟨by decide +kernel, by decide +kernel, by decide +kernel, ?_, creationExact_connected.1⟩
  intro n c h
  have key : ∀ n : CallNo, (connected.call n).all (fun c => c.owner.isSome == c.state.owned) = true := by decide +kernel
  have e := key n
  rw [h] at e
  exact eq_of_beq e

theorem tables_legal : Tables.withoutImage.Legal := by
  refine ⟨?_, ?_, ?_, ?_, ?_, ?_⟩
  · intro g a c h
    have empty : ∀ (g : SegId) (a : Addr), (Tables.withoutImage.posts[g])[a] = none := by decide +kernel
    rw [empty g a] at h
    exact nomatch h
  · unfold SegmentConfig.Legal
    decide +kernel
  · unfold Window.Legal
    decide +kernel
  · unfold ClassEntry.Legal
    decide +kernel
  · unfold Defaults.Legal
    decide
  · intro l
    unfold LinkConfig.Legal
    cases l <;> decide

/-- The invariants hold of a state with a call CONNECTED, and a step is taken from it. -/
theorem witness_StepsKeepQueuesTripsModesAndCounts :
    QueuesDistinct connected ∧ TripsLegal connected ∧ SomeAccepting connected ∧ AbandonedOk connected.abandonedList ∧
      ResetHeld connected ∧ ∃ t, step { connected with pending := [.timeClockTick] } = .next t := by
  unfold QueuesDistinct Poll.Distinct TripsLegal SomeAccepting AbandonedOk ResetHeld
  exact ⟨by decide +kernel, by decide +kernel, by decide +kernel, by decide +kernel, by decide +kernel, _, rfl⟩

theorem counts_connected : CountsInRange connected := by
  unfold CountsInRange Post.CountsOk
  refine ⟨?_, ?_, ?_⟩
  · intro ⟨g, a⟩
    revert g a
    decide +kernel
  · intro n c h
    have key : ∀ n : CallNo, (connected.call n).all (fun c => c.priority ≤ 255) = true := by decide +kernel
    have e := key n
    rw [h] at e
    exact of_decide_eq_true e
  · intro l
    cases l <;> decide +kernel

/-- A property of the CONNECTED call is one of every call there. -/
theorem connected_calls (P : CallNo → Call → Prop) (h0 : P 0 connectedCall) : ∀ n c, connected.call n = some c → P n c := by
  have others : ∀ n : CallNo, n ≠ 0 → connected.call n = none := by decide +kernel
  have first : connected.call 0 = some connectedCall := by decide +kernel
  intro n c h
  by_cases e : n = 0
  · subst e; rw [first] at h; cases h; exact h0
  · rw [others n e] at h; cases h

theorem offersMatch_connected : OffersMatch connected where
  counted := by intro l; cases l <;> decide +kernel
  unoffered := connected_calls _ (fun _ => rfl)
  offered := connected_calls _ (fun h => absurd h (by decide))
  takers := fun n c l h => connected_calls (fun _ c => c.offered.get l = true → _) (by cases l <;> exact fun h => nomatch h) n c h
  depth := by intro l; cases l <;> decide +kernel

theorem channelsMatch_connected : ChannelsMatch connected where
  owner := connected_calls _ rfl
  joined := connected_calls _ (fun h => nomatch h)
  placed := connected_calls _ (by decide +kernel)
  free := by
    have rest : ∀ (k : ChanNo), connected.channel .b k = Channel.atReset ∧
        (k ≠ 0 → connected.channel .a k = Channel.atReset) := by decide +kernel
    intro l k h
    cases l with
    | b => exact (rest k).1
    | a =>
      by_cases e : k = 0
      · subst e
        exact absurd ⟨rfl, rfl⟩ (h 0 connectedCall (by decide +kernel) (.a, 0, .owner) (by decide))
      · exact (rest k).2 e

/-- The CONNECTED call is the one holder of a path. -/
theorem connected_holder (g : SegId) (r : CallRef) (h : (connected.path g).holder = .call r) :
    g = 0 ∧ r = ⟨0, 5#16⟩ := by
  have others : ∀ g : SegId, g ≠ 0 → (connected.path g).holder = .none := by decide +kernel
  have first : (connected.path 0).holder = .call ⟨0, 5#16⟩ := by decide +kernel
  by_cases e : g = 0
  · subst e; rw [first] at h; cases h; exact ⟨rfl, rfl⟩
  · rw [others g e] at h; cases h

theorem pathsMatch_connected : PathsMatch connected where
  held := connected_calls _ (by decide +kernel)
  holder := by
    intro g r h
    obtain ⟨rfl, rfl⟩ := connected_holder g r h
    exact ⟨connectedCall, by decide +kernel, rfl⟩
  holding := connected_calls _ (fun _ => ⟨.inr (.inl rfl), rfl⟩)
  connected := connected_calls _ (fun _ => rfl)
  lineDown := connected_calls _ ⟨fun h => (nomatch h), fun h => nomatch h⟩
  grant := by
    intro g r c h hc
    obtain ⟨rfl, rfl⟩ := connected_holder g r h
    have e : connected.callOf ⟨0, 5#16⟩ = some connectedCall := by decide +kernel
    rw [e] at hc
    cases hc
    decide +kernel
  noGrant := by
    have others : ∀ g : SegId, g ≠ 0 → (connected.path g).grant = none := by decide +kernel
    intro g h
    by_cases e : g = 0
    · subst e; exact absurd (by decide +kernel) (h ⟨0, 5#16⟩)
    · exact others g e
  asked := connected_calls _ (by decide +kernel)
  freed := by
    have empty : connected.requests = [] := by decide +kernel
    intro n _ q hq
    rw [empty] at hq
    exact nomatch hq
  tests := by decide +kernel
  testing := by
    have none : ∀ g : SegId, (connected.path g).test = none ∧ (connected.path g).holder ≠ .test := by decide +kernel
    intro g
    rw [(none g).1]
    exact ⟨fun h => absurd h (none g).2, fun ⟨_, h, _⟩ => nomatch h⟩
  signal := by
    have none : ∀ g : SegId, (connected.path g).test = none ∧ (connected.path g).signal = none := by decide +kernel
    intro g
    rw [(none g).1, (none g).2]
    exact ⟨fun h => (nomatch h), fun ⟨_, h, _⟩ => nomatch h⟩
  holdTone := by
    have none : ∀ g : SegId, (connected.path g).holdTone = none := by decide +kernel
    have e : connected.callOf ⟨0, 5#16⟩ = some connectedCall := by decide +kernel
    intro g
    rw [none g]
    refine ⟨fun h => (nomatch h), fun ⟨r, c, h, hc, ht⟩ => ?_⟩
    obtain ⟨rfl, rfl⟩ := connected_holder g r h
    rw [e] at hc
    cases hc
    exact nomatch ht
  selected := by
    have others : ∀ p : PostId, p ≠ p0 → (connected.post p).selected = false := by
      intro ⟨g, a⟩
      revert g a
      decide +kernel
    intro p h
    by_cases e : p = p0
    · subst e; exact ⟨by decide +kernel, ⟨0, 5#16⟩, connectedCall, by decide +kernel, by decide +kernel, rfl⟩
    · rw [others p e] at h; cases h

theorem loadMatches_connected : LoadMatches connected := by unfold LoadMatches; decide +kernel

theorem idle_connected : IdleOutsideRunning connected := fun h => absurd (by decide +kernel) h

/-- The queue-load flag is set with 13 waiting: the offered call, and 12 posts of segment 8. -/
def loaded : State :=
  { offered with
    queueLoad := true
    pendingList := (allAddrs.take 12).map (fun a => ⟨⟨7, a⟩, 3#32, ⟨.default, 100⟩⟩)
    pending := [.answer .a 7 ref0 1] }

/-- R90: the ANSWER that brings the count to 12 clears the flag, and QUEUE_LOAD says so on both links. -/
theorem test_queue_load : (match step loaded with
    | .next t => (t.queueLoad, told .a (.queueLoad false 12 12) t, told .b (.queueLoad false 12 12) t)
    | .fault _ => (true, false, false)
    | .refused _ => (true, false, false)) = (false, true, true) := by decide +kernel

theorem loadMatches_loaded : LoadMatches loaded := by unfold LoadMatches; decide +kernel

theorem witness_StepsKeepOwnersAndCreationOrder :
    OwnersMatch connected ∧ CreationExact connected ∧ IdleOutsideRunning connected ∧ OffersMatch connected ∧
      ChannelsMatch connected ∧ LoadMatches connected ∧ (∃ t, step { connected with pending := [.powerOn] } = .next t) ∧
      LoadMatches loaded ∧ CreationExact loaded ∧ loaded.pending.head? = some (.answer .a 7 ref0 1) ∧
      (Instr.answer .a 7 ref0 1).bringsBytes = false ∧ (loaded.link .a).up = true ∧ (loaded.link .b).up = true :=
  ⟨invariants_running.2.2.2.1, creationExact_connected.1, idle_connected, offersMatch_connected, channelsMatch_connected,
    loadMatches_connected, ⟨_, rfl⟩, loadMatches_loaded, by unfold CreationExact; decide +kernel, rfl, rfl,
    by decide +kernel, by decide +kernel⟩

theorem witness_StepsKeepPostsAndCallsTogether :
    CallPartsMatch connected ∧ OwnersMatch connected ∧ CreationExact connected ∧ PathsMatch connected ∧
      ∃ t, step connected = .next t :=
  ⟨callPartsMatch_connected, invariants_running.2.2.2.1, creationExact_connected.1, pathsMatch_connected, _, rfl⟩

theorem witness_StepsKeepTheTablesInRange : TablesInRange (saving .writing) ∧ ∃ t, step (saving .writing) = .next t :=
  ⟨⟨tables_legal, tables_legal, fun _ h => Option.some.inj h ▸ tables_legal⟩, _, rfl⟩

theorem witness_FramedBlocksAreTakenOnceAndBadOnesDiscarded :
    (running.link .a).assembly = [] ∧ running.supply.phase ≠ .inReset ∧ [0x00#8].length ≤ 1021 ∧
      (0x00#8 : Byte) ≠ 0xC5#8 ∧ (0x02#8 : Byte) ≠ 0xC5#8 ∧ ((0x00#8 ++ 0x02#8 : BitVec 16).toNat < 3) ∧
      1024 < (0x04#8 ++ 0x01#8 : BitVec 16).toNat ∧
      (let rest := [0x00#8, 0x01#8, 0x01#8, 0x00#8, 0x00#8]
       3 + 2 ≤ rest.length ∧ (∀ b ∈ rest, b ≠ 0xC5#8) ∧
         bytes16 (crc16 (0x00#8 :: 0x03#8 :: rest.take 3)) ≠ (rest.drop 3).take 2) := by decide +kernel

end Sys2Proof.Tests
end

section
/-! SUPPORT. READ_CLASS, and what the other reads give of alarm sets and call classes (R54): first what a command of an
UP link does outside reset, then which check of the three reads applies, then the answers. -/

namespace Sys2Proof.Machine

open Sys2Proof

/-! ### The phases outside reset -/

theorem inReset_of_running {s : State} (h : s.supply.phase = .running) : s.inReset = false := by
  simp [State.inReset, h]

theorem inReset_of_loading {s : State} (h : s.supply.phase = .loading) : s.inReset = false := by
  simp [State.inReset, h]

theorem loading_of_running {s : State} (h : s.supply.phase = .running) : s.loading = false := by
  simp [State.loading, h]

theorem loading_of_loading {s : State} (h : s.supply.phase = .loading) : s.loading = true := by
  simp [State.loading, h]

theorem outsideReset_of_not_inReset (f : State → State) {s : State} (h : s.inReset = false) :
    outsideReset f s = f s := by
  simp [outsideReset, h]

/-! ### The sign of life of an UP link -/

@[simp] theorem restartLoss_tables (x : Link) (s : State) : (restartLoss x s).tables = s.tables := rfl
@[simp] theorem loading_restartLoss (x : Link) (s : State) : (restartLoss x s).loading = s.loading := rfl
@[simp] theorem lookup_restartLoss (x : Link) (c : CallArg) (s : State) : (restartLoss x s).lookup c = s.lookup c := rfl

@[simp] theorem up_restartLoss (x : Link) (s : State) : ((restartLoss x s).link x).up = (s.link x).up := by
  simp [restartLoss]

theorem signOfLife_of_up {x : Link} {s : State} (h : (s.link x).up = true) : signOfLife x s = restartLoss x s := by
  simp [signOfLife, h]

/-! ### A command of an UP link outside reset -/

section
variable {x : Link} {s : State} (hup : (s.link x).up = true) (hreset : s.inReset = false) (tag : Tag)
  (k : CommandType) {check : State → Option RefusalCode} (reply : State → Reply) (effect : State → State)
include hup hreset

/-- The checks see the state in which only the loss timer has been restarted; the first that applies is the response. -/
theorem runCommand_refused {code : RefusalCode} (hc : check (restartLoss x s) = some code) :
    runCommand x tag k check reply effect s = replied x tag k (.refused code) s := by
  simp [runCommand, outsideReset_of_not_inReset _ hreset, signOfLife_of_up hup, hc, replied]

/-- With no check applying, the effect is taken in the state the response DONE was queued in. -/
theorem runCommand_done (hc : check (restartLoss x s) = none) :
    runCommand x tag k check reply effect s =
      effect (replied x tag k (.done (reply (restartLoss x s))) s) := by
  simp [runCommand, outsideReset_of_not_inReset _ hreset, signOfLife_of_up hup, hc, replied]

end

/-! ### Numbers as sent -/

@[simp] theorem zeroBased_val {k : Nat} (n : Fin k) : zeroBased k n.val = some n := by
  simp [zeroBased]

theorem zeroBased_of_le {k n : Nat} (h : k ≤ n) : zeroBased k n = none := by
  simp [zeroBased, h]

theorem callNumberOf_of_lookup {s : State} {c : CallArg} {n : CallNo} {r : Call} (h : s.lookup c = some (n, r)) :
    callNumberOf c.number = some n := by
  unfold State.lookup at h
  split at h
  next => cases h
  next m hm =>
    split at h
    next => cases h
    next =>
      split at h
      next => cases h; exact hm
      next => cases h

/-! ### READ_CLASS (R54) -/

section
variable {l : Link} {s : State} (tag : Tag)

theorem readClass_malformed (hup : (s.link l).up = true) (hreset : s.inReset = false) {e : Nat} (he : 8 < e) :
    readClass l tag e s = replied l tag .readClass (.refused .malformed) s :=
  runCommand_refused hup hreset tag _ _ _ (by simp [firstRefusal, Nat.not_le_of_lt he])

theorem readClass_busy (hup : (s.link l).up = true) (hphase : s.supply.phase = .loading) {e : Nat} (he : e ≤ 8) :
    readClass l tag e s = replied l tag .readClass (.refused .busy) s :=
  runCommand_refused hup (inReset_of_loading hphase) tag _ _ _
    (by simp [firstRefusal, he, loading_of_loading hphase])

theorem readClass_entry (hs : s.serves l) (e : EntryNo) :
    readClass l tag e.val s = replied l tag .readClass (.done (.classEntry s.tables.classes[e])) s := by
  obtain ⟨hphase, hup⟩ := hs
  have he : e.val ≤ 8 := Nat.le_of_lt e.isLt
  unfold readClass
  rw [runCommand_done hup (inReset_of_running hphase) _ _ _ _ (by simp [firstRefusal, he, loading_of_running hphase])]
  simp

/-- The number 8 is DEFAULT: it names no entry, and the answer is the default class weight. -/
theorem readClass_default (hs : s.serves l) :
    readClass l tag 8 s = replied l tag .readClass (.done (.defaultWeight s.tables.defaults.weight)) s := by
  obtain ⟨hphase, hup⟩ := hs
  unfold readClass
  rw [runCommand_done hup (inReset_of_running hphase) _ _ _ _ (by simp [firstRefusal, loading_of_running hphase])]
  simp [zeroBased_of_le]

/-! ### The answers of READ_POST and READ_CALL (R22, R92) -/

theorem readPost_done (hs : s.serves l) {p : PostArg} {q : PostId} (hp : postOf p = some q) :
    readPost l tag p s = replied l tag .readPost (.done (.post (s.postData q))) s := by
  obtain ⟨hphase, hup⟩ := hs
  unfold readPost
  rw [runCommand_done hup (inReset_of_running hphase) _ _ _ _
    (by simp [firstRefusal, hp, loading_of_running hphase]), hp]
  rfl

theorem readCallChecks_of_lookup {c : CallArg} {n : CallNo} {r : Call} (hl : s.lookup c = some (n, r))
    (hphase : s.supply.phase = .running) : readCallChecks c s = none := by
  simp [readCallChecks, firstRefusal, callNumberOf_of_lookup hl, loading_of_running hphase, hl]

theorem readCall_done (hs : s.serves l) {c : CallArg} {n : CallNo} {r : Call} (hl : s.lookup c = some (n, r)) :
    readCall l tag c s = replied l tag .readCall (.done (.call (s.callData n r))) s := by
  obtain ⟨hphase, hup⟩ := hs
  have hl' : (restartLoss l s).lookup c = some (n, r) := by rwa [lookup_restartLoss]
  unfold readCall
  rw [runCommand_done hup (inReset_of_running hphase) _ _ _ _ (readCallChecks_of_lookup hl' hphase), hl']
  rfl

end

/-! ### The three reads as rows -/

theorem exec_readClass (l : Link) (tag : Tag) (e : Nat) (s : State) :
    exec (.readClass l tag e) s = .next (readClass l tag e s) := rfl

theorem exec_readPost (l : Link) (tag : Tag) (p : PostArg) (s : State) :
    exec (.readPost l tag p) s = .next (readPost l tag p s) := rfl

theorem exec_readCall (l : Link) (tag : Tag) (c : CallArg) (s : State) :
    exec (.readCall l tag c) s = .next (readCall l tag c s) := rfl

/-- Settles O13: each clause is the spec lemma of its read, in the phase and for the operand the clause names. -/
theorem readClassAnswersTheEntry : Obligations.ReadClassAnswersTheEntry := by
  intro l tag s hup
  refine ⟨fun hrunning => ?_, fun hloading e he => ?_⟩
  · have hs : s.serves l := ⟨hrunning, hup⟩
    refine ⟨fun e => ?entry, ?default, fun e he => ?malformed, fun p q hp => ?post, fun c n r hl => ?call⟩
    case entry => rw [exec_readClass, readClass_entry tag hs]
    case default => rw [exec_readClass, readClass_default tag hs]
    case malformed => rw [RefusedWith, exec_readClass, readClass_malformed tag hup (inReset_of_running hrunning) he]
    case post => exact ⟨s.postData q, by rw [exec_readPost, readPost_done tag hs hp], rfl⟩
    case call => exact ⟨s.callData n r, by rw [exec_readCall, readCall_done tag hs hl], rfl⟩
  · rw [RefusedWith, exec_readClass, readClass_busy tag hup hloading he]

end Sys2Proof.Machine
end

section
/-! SUPPORT. The filtered distance (R59): the step as a function of the difference alone, then the move of F it makes, then
a run of samples. -/

namespace Sys2Proof.Machine

open Sys2Proof

/-! ### The step of the filter -/

/-- The step that stage 3 takes for the difference d. `filterDistance_some` ties it to the model's filter. -/
def filterStep (d : Int) : Int := if d.tdiv 8 = 0 then d.sign else d.tdiv 8

theorem filterStep_of_tdiv_ne {d : Int} (h : d.tdiv 8 ≠ 0) : filterStep d = d.tdiv 8 := if_neg h

theorem filterStep_of_tdiv_eq {d : Int} (h : d.tdiv 8 = 0) : filterStep d = d.sign := if_pos h

@[simp] theorem filterStep_zero : filterStep 0 = 0 := rfl

/-- The filter is odd: it comes down as it goes up. -/
@[simp] theorem filterStep_neg (d : Int) : filterStep (-d) = -filterStep d := by
  by_cases h : d.tdiv 8 = 0
  · rw [filterStep_of_tdiv_eq h, filterStep_of_tdiv_eq (by rw [Int.neg_tdiv, h, Int.neg_zero]), Int.sign_neg]
  · rw [filterStep_of_tdiv_ne h, filterStep_of_tdiv_ne (by rwa [Int.neg_tdiv, Int.neg_ne_zero]), Int.neg_tdiv]

/-- Upward the step is at least one metre and at most the difference. -/
theorem filterStep_of_pos {d : Int} (hd : 0 < d) : 1 ≤ filterStep d ∧ filterStep d ≤ d := by
  by_cases h : d.tdiv 8 = 0
  · rw [filterStep_of_tdiv_eq h, Int.sign_eq_one_of_pos hd]
    omega
  · rw [filterStep_of_tdiv_ne h]
    rw [Int.tdiv_eq_ediv_of_nonneg (Int.le_of_lt hd)] at h ⊢
    omega

theorem filterStep_of_neg {d : Int} (hd : d < 0) : d ≤ filterStep d ∧ filterStep d ≤ -1 := by
  have up := filterStep_of_pos (Int.neg_pos.mpr hd)
  rw [filterStep_neg] at up
  omega

/-! ### The move of F -/

/-- The model's conversion to a natural number loses nothing: the step stops at S, which is not below 0. -/
theorem filterDistance_some (F S : Nat) :
    (filterDistance (some F) S : Int) = F + filterStep ((S : Int) - F) := by
  have notBelowZero : 0 ≤ (F : Int) + filterStep ((S : Int) - F) := by
    obtain hd | hd | hd := Int.lt_trichotomy ((S : Int) - F) 0
    · have := filterStep_of_neg hd
      omega
    · rw [hd, filterStep_zero]
      omega
    · have := filterStep_of_pos hd
      omega
  exact Int.toNat_of_nonneg notBelowZero

theorem filterDistance_sub (F S : Nat) :
    (filterDistance (some F) S : Int) - F = filterStep ((S : Int) - F) := by
  rw [filterDistance_some, Int.add_comm, Int.add_sub_cancel]

/-- F after a sample lies between F before it and the sample. -/
theorem filterDistance_between {F S lo hi : Nat} (hF : lo ≤ F ∧ F ≤ hi) (hS : lo ≤ S ∧ S ≤ hi) :
    lo ≤ filterDistance (some F) S ∧ filterDistance (some F) S ≤ hi := by
  have moved := filterDistance_some F S
  obtain hd | hd | hd := Int.lt_trichotomy ((S : Int) - F) 0
  · have := filterStep_of_neg hd
    omega
  · rw [hd, filterStep_zero] at moved
    omega
  · have := filterStep_of_pos hd
    omega

/-! ### Runs of samples -/

theorem foldl_filterDistance_between {lo hi : Nat} (samples : List Nat) (h : ∀ x ∈ samples, lo ≤ x ∧ x ≤ hi) :
    ∀ {F : Nat}, lo ≤ F ∧ F ≤ hi →
      lo ≤ samples.foldl (fun f x => filterDistance (some f) x) F ∧
        samples.foldl (fun f x => filterDistance (some f) x) F ≤ hi := by
  induction samples with
  | nil => exact id
  | cons S samples ih =>
    obtain ⟨hS, hrest⟩ := List.forall_mem_cons.mp h
    exact fun hF => ih hrest (filterDistance_between hF hS)

/-! ### OVER_RANGE samples -/

/-- An OVER_RANGE sample is held at 65535 (R58). -/
theorem metres_of_overRange {D T K m : Nat} (h : rangeSample D T K = .distance m true) : m = 65535 := by
  unfold rangeSample at h
  split at h
  next => cases h
  next =>
    dsimp only at h
    split at h
    next => cases h; rfl
    next => cases h

/-- Settles O54: the clauses on one sample are facts about `filterStep` at the difference d, by the sign of d; the range is
an induction over the samples. -/
theorem filterMovesTowardTheSample : Obligations.FilterMovesTowardTheSample := by
  refine ⟨fun S => rfl, fun F S hF hS => ?oneSample, fun S more lo hi _ h => ?range, fun F => rfl, fun F m o => rfl,
    fun D T K m => metres_of_overRange⟩
  case range =>
    obtain ⟨hS, hmore⟩ := List.forall_mem_cons.mp h
    exact foldl_filterDistance_between more hmore hS
  case oneSample =>
    intro d step
    have hd : d = (S : Int) - F := rfl
    have hstep : step = filterStep d := filterDistance_sub F S
    refine ⟨by omega, fun h => hstep.trans (filterStep_of_tdiv_ne h), fun h up => ?_, fun h down => ?_, ?_⟩
    · rw [hstep, filterStep_of_tdiv_eq h, Int.sign_eq_one_of_pos up]
    · rw [hstep, filterStep_of_tdiv_eq h, Int.sign_eq_neg_one_of_neg down]
    clear_value d step
    obtain down | rfl | up := Int.lt_trichotomy d 0
    · have := filterStep_of_neg down
      omega
    · rw [filterStep_zero] at hstep
      omega
    · have := filterStep_of_pos up
      omega

end Sys2Proof.Machine
end

section
/-! SUPPORT. READ_WINDOW, and the default home link and overflow time in READ_STATUS's answer (R111): the block of a
window, the answers, then the two reads as rows. -/

namespace Sys2Proof.Machine

open Sys2Proof

/-! ### The block of a window -/

/-- The model finds the first chainage of a block by division, R111's statement by what lies above the last multiple of
the size. -/
theorem Window.base_div_mul_size (v : Window) :
    v.base / v.size * v.size = v.base - v.base % 2 ^ (10 + v.sizeCode.val) :=
  Nat.div_mul_self_eq_mod_sub_self

/-! ### READ_WINDOW (R111) -/

section
variable {l : Link} {s : State} (tag : Tag)

theorem readWindow_malformed (hup : (s.link l).up = true) (hreset : s.inReset = false) {w : Nat} (hw : 8 ≤ w) :
    readWindow l tag w s = replied l tag .readWindow (.refused .malformed) s :=
  runCommand_refused hup hreset tag _ _ _ (by simp [firstRefusal, zeroBased_of_le hw])

theorem readWindow_busy (hup : (s.link l).up = true) (hphase : s.supply.phase = .loading) (w : WindowNo) :
    readWindow l tag w.val s = replied l tag .readWindow (.refused .busy) s :=
  runCommand_refused hup (inReset_of_loading hphase) tag _ _ _
    (by simp [firstRefusal, loading_of_loading hphase])

theorem readWindow_done (hs : s.serves l) (w : WindowNo) :
    readWindow l tag w.val s = replied l tag .readWindow (.done (.window s.tables.windows[w]
      (s.tables.windows[w].base - s.tables.windows[w].base % 2 ^ (10 + s.tables.windows[w].sizeCode.val))
      (s.tables.windows[w].base - s.tables.windows[w].base % 2 ^ (10 + s.tables.windows[w].sizeCode.val) +
        2 ^ (10 + s.tables.windows[w].sizeCode.val) - 1))) s := by
  obtain ⟨hphase, hup⟩ := hs
  unfold readWindow
  rw [runCommand_done hup (inReset_of_running hphase) _ _ _ _ (by simp [firstRefusal, loading_of_running hphase]),
    zeroBased_val]
  simp only [Window.base_div_mul_size, restartLoss_tables]
  rfl

/-! ### READ_STATUS (R111, R162) -/

theorem readStatus_done (hup : (s.link l).up = true) (hreset : s.inReset = false) :
    readStatus l tag s = modLink l (fun r => { r with overrun := false })
      (replied l tag .readStatus (.done (.status ((restartLoss l s).statusFor l))) s) :=
  runCommand_done hup hreset tag _ _ _ rfl

end

theorem statusFor_defaultHome {s : State} (h : s.loading = false) (x : Link) :
    (s.statusFor x).defaultHome = some s.tables.defaults.home := by
  simp [State.statusFor, h]

theorem statusFor_defaultOverflow {s : State} (h : s.loading = false) (x : Link) :
    (s.statusFor x).defaultOverflow = some s.tables.defaults.overflow := by
  simp [State.statusFor, h]

/-! ### The two reads as rows -/

theorem exec_readWindow (l : Link) (tag : Tag) (w : Nat) (s : State) :
    exec (.readWindow l tag w) s = .next (readWindow l tag w s) := rfl

theorem exec_readStatus (l : Link) (tag : Tag) (s : State) :
    exec (.readStatus l tag) s = .next (readStatus l tag s) := rfl

/-- Settles O14: each clause is the spec lemma of its read, in the phase and for the number the clause names. -/
theorem readWindowAnswersTheWindow : Obligations.ReadWindowAnswersTheWindow := by
  intro l tag s hup
  refine ⟨fun hrunning => ⟨fun w => ?window, fun w hw => ?malformed, ?status⟩, fun hloading w hw => ?busy⟩
  case window => rw [exec_readWindow, readWindow_done tag ⟨hrunning, hup⟩]
  case malformed => rw [RefusedWith, exec_readWindow, readWindow_malformed tag hup (inReset_of_running hrunning) hw]
  case status =>
    have hload : (restartLoss l s).loading = false := by rw [loading_restartLoss, loading_of_running hrunning]
    exact ⟨(restartLoss l s).statusFor l, by rw [exec_readStatus, readStatus_done tag hup (inReset_of_running hrunning)],
      statusFor_defaultHome hload l, statusFor_defaultOverflow hload l⟩
  case busy => rw [RefusedWith, exec_readWindow, readWindow_busy tag hup hloading ⟨w, hw⟩]

end Sys2Proof.Machine
end
